-- ==== Sys2Proof/Word.lean ====
section
/-! DEFINITION. The plain words of the links (bytes and samples) and the fixed-length table that State is made of. -/

namespace Sys2Proof

/-- A byte of a frame or a cell (file 10). -/
abbrev Byte := BitVec 8

/-- A signed 16-bit audio sample (file 10). -/
abbrev Sample := BitVec 16

/-- A table of `n` entries, numbered from 0. -/
structure Tab (α : Type) (n : Nat) where
  items : List α
  size : items.length = n
  deriving DecidableEq, Repr

/-- `mapFrom f k l` applies `f` to each entry with its index, counted from `k`. -/
def mapFrom {α β : Type} (f : Nat → α → β) : Nat → List α → List β
  | _, [] => []
  | k, a :: l => f k a :: mapFrom f (k + 1) l

theorem mapFrom_length {α β : Type} (f : Nat → α → β) (k : Nat) (l : List α) :
    (mapFrom f k l).length = l.length := by
  induction l generalizing k with
  | nil => rfl
  | cons a l ih => simp [mapFrom, ih]

namespace Tab

variable {α β : Type} {n : Nat}

/-- The table whose entries are all `a`. -/
def const (a : α) : Tab α n := ⟨List.replicate n a, by simp⟩

/-- Entry `i`; the type's default beyond the end, which no rule reads. -/
def get [Inhabited α] (t : Tab α n) (i : Nat) : α := t.items.getD i default

/-- The table with entry `i` replaced; unchanged when `i` is beyond the end. -/
def set (t : Tab α n) (i : Nat) (a : α) : Tab α n := ⟨t.items.set i a, by simp [t.size]⟩

/-- The table with `f` applied to every entry and its index. -/
def mapIdx (t : Tab α n) (f : Nat → α → β) : Tab β n :=
  ⟨mapFrom f 0 t.items, by simp [mapFrom_length, t.size]⟩

end Tab

end Sys2Proof
end

