-- ==== Sys2Proof/Syntax.lean ====
section
/-! DEFINITION. The commands of the part: one constructor of Instr for each row of spec/opcode_table.json, and the types
of their operands. -/

namespace Sys2Proof

/-- The message kind of a plan claim (R77). -/
inductive PlanKind where
  | alert
  | evacuate
  | allClear
  deriving DecidableEq, Repr, Inhabited

/-- The nine building tables, in the order of their numbers (R181). -/
inductive TableName where
  | header
  | storey
  | zoneRecord
  | detection
  | plan
  | step
  | translation
  | defaultChannel
  | authority
  deriving DecidableEq, Repr, Inhabited

/-- An entry, named by its table and its index (file 01, section 1.1). -/
structure EntryRef where
  table : TableName
  index : Nat
  deriving DecidableEq, Repr, Inhabited

/-- A fault: its kind with its object (file 09, section 9.2). -/
inductive FaultId where
  | lineOpen (zone : Nat)
  | lineShort (zone : Nat)
  | earth (zone : Nat)
  | ampFail (zone : Nat)
  | noReport (zone : Nat)
  | zoneDisabled (zone : Nat)
  | sourceLost (channel : Nat)
  | detectorFault (dz : Nat)
  | sLink
  | zLink
  | tableCorrupt (entry : EntryRef)
  deriving DecidableEq, Repr

/-- The cause recorded with GENERAL (R70). -/
inductive GeneralCause where
  | unmapped
  | overflow
  | planFault
  | officer
  deriving DecidableEq, Repr

/-- What an INCIDENT notification says of an incident (R174). -/
inductive IncidentNews where
  | confirming
  | active
  | held
  | removed
  deriving DecidableEq, Repr

/-- The reasons for which a live claim is dropped, in the order of the table of R97. -/
inductive DropReason where
  | noAnswer
  | withdrawn
  | retryLimit
  | channelBusy
  | table
  | sourceLost
  | link
  | restart
  deriving DecidableEq, Repr

/-- How an edit ended without its owner asking (R163, R166). -/
inductive EditEnd where
  | broken
  | expired
  deriving DecidableEq, Repr

/-- A notification: its kind and what it carries (R174). -/
inductive Notice where
  | incident (id : Nat) (news : IncidentNews)
  | general (isSet : Bool) (cause : GeneralCause)
  | incidentOverflow (dz : Nat)
  | claimDropped (slot station : Nat) (reason : DropReason)
  | faultAdded (fault : FaultId) (stamp : Nat)
  | faultRemoved (fault : FaultId) (stamp : Nat)
  | editEnded (how : EditEnd)
  | snapshot (faults incidents : Nat) (general : Option GeneralCause)
  | overrun
  deriving DecidableEq, Repr

/-- The source station of a request or a CLAIM cell, and the cell's tag, which the answer echoes (R152). -/
structure Sender where
  station : Nat
  tag : Nat
  deriving DecidableEq, Repr, Inhabited

/-- The selection as a CLAIM cell carries it (file 10, section 10.2): a span, a set of zone groups (bit g for group g),
or a selection form the part does not know. -/
inductive SelectionField where
  | span (first count : Nat)
  | groups (set : BitVec 16)
  | unknown (form : Nat)
  deriving DecidableEq, Repr

/-- The commands: one constructor for each row of spec/opcode_table.json, in the table's order. -/
inductive Instr where
  | powerOnReset
  | frameEvent
  | incidentTick
  | supervisionTick
  /-- A frame start arrives; `inWindow` says whether it falls in the expected window of R105. -/
  | frameStart (inWindow : Bool)
  /-- The period just ended: the bytes after the frame start word of the S-frame that started in it, or none (R107). -/
  | sPeriodSettle (received : Option (List Byte))
  | sLinkUp
  | huntFailed
  | sLinkIsland
  | sOutboundFrame
  | zFrameBuild
  /-- The return period just ended: the bytes of the return frame that started in it, or none (R113). -/
  | zPeriodSettle (received : Option (List Byte))
  | zLinkUp
  | zLinkDown
  | returnCellForward (cell : List Byte)
  | cellForwardSToZ (cell : List Byte)
  | transmitterChoice
  | fire (dz : Nat)
  | restore (dz : Nat)
  | dfault (dz : Nat)
  | dfaultClear (dz : Nat)
  | detectDiscard (dz event : Nat)
  | confirmDeadlineExpiry (id : Nat)
  | allClearEnd (zone : Nat)
  /-- The changed zones of one hand-over, each with its new plan claim or none (R73). -/
  | planClaimHandover (changes : List (Nat × Option PlanKind))
  | claim (sender : Sender) (level channel : Nat) (selection : SelectionField)
  | release (station slot : Nat)
  | answerReady (station slot number : Nat)
  | answerDefault (station slot number : Nat)
  | answerWithdraw (station slot number : Nat)
  | answerWait (station slot number : Nat)
  | confirmTimeout (slot : Nat)
  | retryIntervalEnd (slot : Nat)
  | channelPresenceChange (channel : Nat)
  | bind (sender : Sender) (address destination : Nat)
  | status (sender : Sender)
  | readEntry (sender : Sender) (table index image : Nat)
  | readLine (sender : Sender) (table index image : Nat)
  | readState (sender : Sender) (kind form number : Nat)
  | find (sender : Sender) (first count sense : Nat) (results : BitVec 8)
  | editBegin (sender : Sender)
  | writeEntry (sender : Sender) (table index : Nat) (contents : List Byte)
  | writeLine (sender : Sender) (table index : Nat) (contents : List Byte)
  | editCommit (sender : Sender)
  | validationEnd
  | install
  | editCancel (sender : Sender)
  | leaseExpiry
  | breakNotice
  | setMask (sender : Sender) (first count value : Nat)
  | setTrim (sender : Sender) (first count value : Nat)
  | hold (sender : Sender) (id : Nat)
  | resume (sender : Sender) (id : Nat)
  | advance (sender : Sender) (id : Nat)
  | resetIncident (sender : Sender) (id : Nat)
  | evacuateAll (sender : Sender)
  | resetAll (sender : Sender)
  | sweep (sender : Sender) (count : Nat)
  | enableNotices (sender : Sender)
  | disableNotices (sender : Sender)
  | restart (sender : Sender)
  | unknownRequest (sender : Sender) (requestType : Nat)
  | addFault (fault : FaultId)
  | removeFault (fault : FaultId)
  | queueNotification (notice : Notice)
  | scrubLine (line : Nat)
  | reservationRequest (zone : Nat)
  | reservationAnswer (zone level : Nat)
  | reservationRelease (zone : Nat)
  | abort (zone : Nat)
  | holderReport (zone level : Nat)
  | returnFrameArrival
  | settleEnd
  | sampleWindowEnd
  | deferralLimit
  | reportsAbsent
  | reportsAvailable
  deriving DecidableEq, Repr

end Sys2Proof
end

