-- ==== Sys2Proof/Config.lean ====
section
/-! DEFINITION. What the manual leaves to the part: the check code's function and the internal tones' waveforms, as
uninterpreted constants with no body. -/

namespace Sys2Proof

/-- The 16-bit code the Table Store computes over all the fields of an entry (R5), given the table number and the entry
image of file 10. The manual gives no polynomial: a free value (log 7). -/
opaque Config.checkCode : Nat → List Byte → BitVec 16

/-- The shape of an internal tone before the stated peak is applied (R120): the kind's number (0 ALERT, 1 EVACUATE,
2 ALL-CLEAR) and the place in its cycle. The manual gives no waveform: a free value (log 9). -/
opaque Config.toneShape : Nat → Nat → BitVec 16

end Sys2Proof
end

