-- ==== Sys2Proof/Machine/State.lean ====
section
/-! DEFINITION. The state of the part, block by block (file 00, section 2.1), and its value after a power-on reset. -/

namespace Sys2Proof.Machine

/-! ### The building tables (files 01 and 02) -/

/-- The Building Header (R9). -/
structure Header where
  storeyCount : Nat
  confirmWindow : Nat
  allClearPeriod : Nat
  tickInterval : Nat
  settleCount : Nat
  deferralLimit : Nat
  confirmTimeout : Nat
  retryInterval : Nat
  deriving DecidableEq, Repr, Inhabited

/-- A Storey Table entry: a zone span (R10). -/
structure Storey where
  first : Nat
  count : Nat
  deriving DecidableEq, Repr, Inhabited

/-- A Zone Record (R12). -/
structure ZoneRecord where
  group : Nat
  baseTrim : Nat
  baseMask : Nat
  supervised : Bool
  low : Nat
  high : Nat
  deriving DecidableEq, Repr, Inhabited

/-- A Detection Map entry; the fields besides `mapped` are stored in an UNMAPPED entry too (R13). -/
structure DetectionEntry where
  mapped : Bool
  storey : Nat
  plan : Nat
  confirmRequired : Bool
  preAlert : Bool
  deriving DecidableEq, Repr, Inhabited

/-- The scope of a plan step (R20). -/
inductive Scope where
  | relative
  | all
  deriving DecidableEq, Repr, Inhabited

/-- The message kind a plan step asks for (R20). -/
inductive StepKind where
  | alert
  | evacuate
  deriving DecidableEq, Repr, Inhabited

/-- A Step Pool record; a `next` of none is END (R20). -/
structure StepRecord where
  scope : Scope
  delay : Nat
  offset : Int
  length : Nat
  kind : StepKind
  carry : Bool
  next : Option Nat
  deriving DecidableEq, Repr, Inhabited

/-- The authority of a station; NONE is an absent Authority (R16, R17). -/
inductive Authority where
  | monitor
  | operate
  | configure
  deriving DecidableEq, Repr, Inhabited

/-- An entry of the Station Authority Table (R16). -/
structure AuthorityRow where
  station : Nat
  authority : Authority
  deriving DecidableEq, Repr, Inhabited

/-- A complete set of the building tables (file 01, section 1.1). In `plans` none is EMPTY, in `translations` FILL, in
`authorities` VACANT. -/
structure Image where
  header : Header
  storeys : Tab Storey 96
  zones : Tab ZoneRecord 128
  detections : Tab DetectionEntry 512
  plans : Tab (Option Nat) 16
  steps : Tab StepRecord 256
  translations : Tab (Option Nat) 48
  defaults : Tab Nat 3
  authorities : Tab (Option AuthorityRow) 32
  deriving DecidableEq, Repr

/-- One entry of an image, of any table. -/
inductive Entry where
  | header (e : Header)
  | storey (e : Storey)
  | zoneRecord (e : ZoneRecord)
  | detection (e : DetectionEntry)
  | plan (e : Option Nat)
  | step (e : StepRecord)
  | translation (e : Option Nat)
  | defaultChannel (e : Nat)
  | authority (e : Option AuthorityRow)
  deriving DecidableEq, Repr

/-- How far an edit has come: OPEN, VALIDATING with the frame events left until the validation ends, or VALIDATING with
the validation passed and the install still to be made (R164). -/
inductive EditPhase where
  | opened
  | validating (framesLeft : Nat)
  | passed
  deriving DecidableEq, Repr

/-- An edit transaction; its absence is CLOSED (R161). -/
structure Edit where
  owner : Nat
  lease : Nat
  staging : Image
  phase : EditPhase
  deriving DecidableEq, Repr

/-- The Table Store. `fields` is the in-effect image as stored. The check code of an entry is the code over its fields in
`coded`, changed by the entry's word in `codeFlips` where the stored code has itself been altered (R5, log 7). -/
structure TableStore where
  fields : Image
  coded : Image
  codeFlips : List (EntryRef × BitVec 16)
  marks : List EntryRef
  edit : Option Edit
  deriving DecidableEq, Repr

/-! ### Frame timer and ports (file 06) -/

/-- Whether the frame timer is locked to the S-frames (R105). -/
inductive TimerLock where
  | free
  | awaitingPhase
  | locked
  deriving DecidableEq, Repr

structure FrameTimer where
  frameCount : Nat
  seconds : Nat
  divider : Nat
  lock : TimerLock
  deriving DecidableEq, Repr

/-- The S-link state (R107). -/
inductive SLink where
  | down
  | hunt
  | up
  | island
  deriving DecidableEq, Repr

/-- The S-port (R107). `partialCell` holds the bytes of a partly rebuilt cell and is empty when there is none;
`sent` is the outbound frame last sent. -/
structure SPort where
  link : SLink
  goodRun : Nat
  failedRun : Nat
  established : Bool
  lastNumber : Nat
  inboundCount : Nat
  partialCell : List Byte
  sent : Option (List Byte)
  deriving DecidableEq, Repr

/-- The Z-link state (R113). -/
inductive ZLink where
  | down
  | up
  deriving DecidableEq, Repr

/-- A return report (R114). -/
structure Report where
  valid : Bool
  load : Nat
  earth : Bool
  ampFailed : Bool
  deriving DecidableEq, Repr

/-- The Z-port (R113, R114); `sent` is the Z-frame last sent. -/
structure ZPort where
  link : ZLink
  goodRun : Nat
  failedRun : Nat
  established : Bool
  lastNumber : Nat
  partialCell : List Byte
  reports : Tab (Option Report) 128
  sent : Option (List Byte)
  deriving DecidableEq, Repr

/-! ### Cell Router (file 08) -/

/-- The status codes of a response, in the order of the table of R155. -/
inductive Status where
  | ok
  | denied
  | notBound
  | alreadyBound
  | unknownRequest
  | badTable
  | badIndex
  | badValue
  | badState
  | notFound
  | editBusy
  | noEdit
  | notOwner
  | incidentActive
  | validation
  | full
  deriving DecidableEq, Repr

/-- The results of a claim response (file 10, section 10.2). -/
inductive ClaimResult where
  | accepted (slot : Nat)
  | notBound
  | denied
  | badLevel
  | badValue
  | channelBusy
  | full
  deriving DecidableEq, Repr

/-- What an answer says: the status of a request of some type with its data bytes, or the result of a claim. -/
inductive AnswerBody where
  | response (requestType : Nat) (status : Status) (data : List Byte)
  | claimResponse (result : ClaimResult)
  deriving DecidableEq, Repr

/-- An answer cell: to the request's source station, from the part's address, with the request's tag (R152). -/
structure Answer where
  station : Nat
  source : Nat
  tag : Nat
  body : AnswerBody
  deriving DecidableEq, Repr

/-- What a reserved place waits for: the command in hand, or the commit that is VALIDATING (R152, R164). -/
inductive Waiting where
  | command
  | commit
  deriving DecidableEq, Repr

/-- A place of the response queue (R148). -/
inductive Place where
  | reserved (waiting : Waiting) (sender : Sender)
  | filled (answer : Answer)
  deriving DecidableEq, Repr

/-- A CONFIRM REQUEST cell: the claim's station, slot, level and channel, and the confirm number in its tag (R89). -/
structure ConfirmRequest where
  station : Nat
  slot : Nat
  level : Nat
  channel : Nat
  number : Nat
  deriving DecidableEq, Repr

/-- A segment of a cell being sent: the cell-start marker and 16 bytes (file 10). -/
structure Segment where
  marker : Bool
  bytes : List Byte
  deriving DecidableEq, Repr

structure Router where
  address : Nat
  destination : Option Nat
  sToZ : List (List Byte)
  zToS : List (List Byte)
  places : List Place
  confirms : List ConfirmRequest
  sSending : List Segment
  zSending : List Segment
  deriving DecidableEq, Repr

/-! ### Incident Engine (files 03 and 04) -/

/-- The demand of a zone, NONE below ALERT below EVACUATE (R72). -/
inductive Demand where
  | none
  | alert
  | evacuate
  deriving DecidableEq, Repr, Inhabited

/-- The condition of a detection zone in a DZ list (R40). -/
inductive Condition where
  | inAlarm
  | restored
  deriving DecidableEq, Repr

/-- The state of an incident; the confirm deadline is present in CONFIRMING only (R40). -/
inductive IncidentState where
  | confirming (deadline : Nat)
  | active
  | held
  deriving DecidableEq, Repr

/-- A last-step record; a `range` of none is empty (R32). -/
structure LastStep where
  step : Nat
  range : Option (Nat × Nat)
  clipped : Nat
  unplaced : Nat
  deriving DecidableEq, Repr

/-- An incident record (R40); a `nextStep` of none is END. -/
structure Incident where
  id : Nat
  state : IncidentState
  origin : Nat
  plan : Nat
  dzList : List (Nat × Condition)
  further : Nat
  elapsed : Nat
  nextStep : Option Nat
  lastStep : Option LastStep
  planFault : Bool
  demand : Tab Demand 128
  deriving DecidableEq, Repr

/-- The Incident Engine. `general` holds the recorded cause while GENERAL is set (R70); an `allClear` timer of 0 is not
running (R74). -/
structure Engine where
  incidents : List Incident
  idCounter : Nat
  general : Option GeneralCause
  demand : Tab Demand 128
  allClear : Tab Nat 128
  deriving DecidableEq, Repr

/-! ### Zone Arbiter (file 05) -/

/-- The selection of a live claim (R83). -/
inductive Selection where
  | span (first count : Nat)
  | groups (set : BitVec 16)
  deriving DecidableEq, Repr

/-- The state of a live claim with what is present in it: the confirm number, the timer in frames, the on-air
stamp (R83). -/
inductive ClaimState where
  | pending
  | confirming (number timer : Nat)
  | waiting (timer : Nat)
  | onAir (stamp : Nat)
  deriving DecidableEq, Repr

/-- A live claim record (R83). -/
structure Claim where
  station : Nat
  channel : Nat
  level : Nat
  selection : Selection
  state : ClaimState
  arrival : Nat
  waitCount : Nat
  zonesHeld : Nat
  deriving DecidableEq, Repr

/-- The holder of a zone (R99). -/
inductive Holder where
  | none
  | plan
  | slot (k : Nat)
  deriving DecidableEq, Repr, Inhabited

structure Arbiter where
  claims : Tab (Option Claim) 16
  planClaims : Tab (Option PlanKind) 128
  masks : Tab Nat 128
  holders : Tab Holder 128
  reserved : Option Nat
  arrivalCounter : Nat
  onAirCounter : Nat
  confirmCounter : Nat
  deriving DecidableEq, Repr

/-! ### Crosspoint (file 06) -/

/-- The presence state of a channel (R115). -/
inductive Presence where
  | absent
  | present
  | lost
  deriving DecidableEq, Repr, Inhabited

/-- The holder record of a zone (R118). -/
inductive HolderRecord where
  | none
  | plan (kind : PlanKind)
  | slot (k channel : Nat)
  deriving DecidableEq, Repr, Inhabited

structure Crosspoint where
  presence : Tab Presence 32
  runs : Tab Nat 32
  samples : Tab Sample 32
  trims : Tab Nat 128
  records : Tab HolderRecord 128
  deriving DecidableEq, Repr

/-! ### Supervision Sequencer (file 07) -/

/-- The step state with the step zone and the counter present in it (R126). -/
inductive StepState where
  | idle
  | deferred (zone ticks : Nat)
  | pilot (zone : Nat)
  | settle (zone counter : Nat)
  | sample (zone counter : Nat)
  deriving DecidableEq, Repr

/-- The failure results (R140). -/
inductive FailKind where
  | lineOpen
  | lineShort
  | earth
  | ampFail
  | noReport
  deriving DecidableEq, Repr

/-- The last result of a zone (R126). -/
inductive LastResult where
  | normal
  | failed (kind : FailKind)
  | busySkipped
  | notTested
  deriving DecidableEq, Repr, Inhabited

/-- The four fields the Sequencer holds for each zone (R126). -/
structure ZoneResult where
  last : LastResult
  failures : Nat
  counted : Option FailKind
  normals : Nat
  deriving DecidableEq, Repr, Inhabited

/-- The Sequencer (R126). -/
structure Sequencer where
  step : StepState
  pointer : Nat
  latch : Bool
  overdue : Nat
  reportsAvailable : Bool
  scrubPointer : Nat
  zones : Tab ZoneResult 128
  deriving DecidableEq, Repr

/-- What the Zone Arbiter sends the Sequencer: a holder report (R101) or an abort (R103). -/
inductive SequencerMail where
  | report (zone level : Nat)
  | abort (zone : Nat)
  deriving DecidableEq, Repr

/-! ### Fault Unit (file 09) -/

/-- An entry of the Fault List (R169). -/
structure FaultEntry where
  fault : FaultId
  stamp : Nat
  deriving DecidableEq, Repr

/-- A notification in the queue with its sequence number (R174). -/
structure QueuedNotice where
  number : Nat
  notice : Notice
  deriving DecidableEq, Repr

structure FaultUnit where
  list : List FaultEntry
  overflow : Bool
  queue : List QueuedNotice
  enabled : Bool
  overrun : Bool
  sequence : Nat
  deriving DecidableEq, Repr

/-! ### The whole part -/

/-- The state of the part. `mail` holds what the Zone Arbiter has sent the Sequencer and the Sequencer has not yet taken
(log 3); `pending` is the queue of commands, oldest first (log 1). -/
structure State where
  timer : FrameTimer
  sPort : SPort
  zPort : ZPort
  router : Router
  tables : TableStore
  engine : Engine
  arbiter : Arbiter
  crosspoint : Crosspoint
  sequencer : Sequencer
  mail : List SequencerMail
  faultUnit : FaultUnit
  pending : List Instr
  deriving DecidableEq, Repr

/-- The faults a command could stop the part with: none. The rules give every command an effect, so no meaning stops. -/
inductive Fault where
  deriving DecidableEq, Repr

/-- The refusals. -/
inductive Refusal where
  /-- Raised only by an arm of exec whose command has no meaning yet; safe. No arm is one now. -/
  | notModelled (mnemonic : String)
  deriving DecidableEq, Repr

/-! ### Power-on values -/

/-- The power-on contents of the Building Header (R9). -/
def Header.powerOn : Header where
  storeyCount := 0
  confirmWindow := 120
  allClearPeriod := 60
  tickInterval := 20
  settleCount := 32
  deferralLimit := 4
  confirmTimeout := 200
  retryInterval := 500

/-- The power-on contents of a Storey Table entry (R10). -/
def Storey.powerOn : Storey where
  first := 0
  count := 0

/-- The power-on contents of a Zone Record (R12). -/
def ZoneRecord.powerOn : ZoneRecord where
  group := 0
  baseTrim := 0
  baseMask := 0
  supervised := false
  low := 0
  high := 255

/-- The power-on contents of a Detection Map entry (R13). -/
def DetectionEntry.powerOn : DetectionEntry where
  mapped := false
  storey := 0
  plan := 0
  confirmRequired := false
  preAlert := false

/-- The power-on contents of a Step Pool record (R20). -/
def StepRecord.powerOn : StepRecord where
  scope := .relative
  delay := 0
  offset := 0
  length := 1
  kind := .alert
  carry := false
  next := none

/-- The power-on image (R1, R9, R10, R12 to R16, R19, R20). -/
def Image.powerOn : Image where
  header := .powerOn
  storeys := .const .powerOn
  zones := .const .powerOn
  detections := .const .powerOn
  plans := .const none
  steps := .const .powerOn
  translations := .const none
  defaults := .const 0
  authorities := .const none

/-- The Table Store holding `image` in effect with fresh check codes, every CORRUPT mark clear and no edit (R1, R3). -/
def TableStore.fresh (image : Image) : TableStore where
  fields := image
  coded := image
  codeFlips := []
  marks := []
  edit := none

/-- The Sequencer's starting values, with the availability of return reports given (R147). -/
def Sequencer.start (reportsAvailable : Bool) : Sequencer where
  step := .idle
  pointer := 0
  latch := false
  overdue := 0
  reportsAvailable := reportsAvailable
  scrubPointer := 0
  zones := .const { last := .notTested, failures := 0, counted := none, normals := 0 }

/-- The part after a power-on reset (R1, R56, R78, R104, R106, R107, R113, R115, R125, R147, R148, R161, R178). -/
def State.reset : State where
  timer := { frameCount := 0, seconds := 0, divider := 32000, lock := .free }
  sPort :=
    { link := .down, goodRun := 0, failedRun := 0, established := false, lastNumber := 0, inboundCount := 0,
      partialCell := [], sent := none }
  zPort :=
    { link := .down, goodRun := 0, failedRun := 0, established := false, lastNumber := 0, partialCell := [],
      reports := .const none, sent := none }
  router :=
    { address := 0, destination := none, sToZ := [], zToS := [], places := [], confirms := [], sSending := [],
      zSending := [] }
  tables := .fresh .powerOn
  engine := { incidents := [], idCounter := 1, general := none, demand := .const .none, allClear := .const 0 }
  arbiter :=
    { claims := .const none, planClaims := .const none, masks := .const 0, holders := .const .none, reserved := none,
      arrivalCounter := 0, onAirCounter := 0, confirmCounter := 0 }
  crosspoint :=
    { presence := .const .absent, runs := .const 0, samples := .const 0, trims := .const 0, records := .const .none }
  sequencer := .start false
  mail := []
  faultUnit := { list := [], overflow := false, queue := [], enabled := false, overrun := false, sequence := 0 }
  pending := []

end Sys2Proof.Machine
end

