-- ==== Sys2Proof/Machine/Ops.lean ====
section
/-! DEFINITION. Named updates of the state, and the operations on images, check codes and CORRUPT marks. -/

namespace Sys2Proof.Machine

/-! ### Updates of one block -/

/-- The state with the timer block changed by `f`. -/
def State.onTimer (s : State) (f : FrameTimer → FrameTimer) : State := { s with timer := f s.timer }

/-- The state with the sPort block changed by `f`. -/
def State.onSPort (s : State) (f : SPort → SPort) : State := { s with sPort := f s.sPort }

/-- The state with the zPort block changed by `f`. -/
def State.onZPort (s : State) (f : ZPort → ZPort) : State := { s with zPort := f s.zPort }

/-- The state with the router block changed by `f`. -/
def State.onRouter (s : State) (f : Router → Router) : State := { s with router := f s.router }

/-- The state with the tables block changed by `f`. -/
def State.onTables (s : State) (f : TableStore → TableStore) : State := { s with tables := f s.tables }

/-- The state with the engine block changed by `f`. -/
def State.onEngine (s : State) (f : Engine → Engine) : State := { s with engine := f s.engine }

/-- The state with the arbiter block changed by `f`. -/
def State.onArbiter (s : State) (f : Arbiter → Arbiter) : State := { s with arbiter := f s.arbiter }

/-- The state with the crosspoint block changed by `f`. -/
def State.onCrosspoint (s : State) (f : Crosspoint → Crosspoint) : State := { s with crosspoint := f s.crosspoint }

/-- The state with the sequencer block changed by `f`. -/
def State.onSequencer (s : State) (f : Sequencer → Sequencer) : State := { s with sequencer := f s.sequencer }

/-- The state with the faultUnit block changed by `f`. -/
def State.onFaultUnit (s : State) (f : FaultUnit → FaultUnit) : State := { s with faultUnit := f s.faultUnit }

/-- The state with one message more for the Sequencer (R101, R103). -/
def State.send (s : State) (m : SequencerMail) : State := { s with mail := s.mail ++ [m] }

/-! ### Tables by number and by entry (R181) -/

def tableNumber : TableName → Nat
  | .header => 0
  | .storey => 1
  | .zoneRecord => 2
  | .detection => 3
  | .plan => 4
  | .step => 5
  | .translation => 6
  | .defaultChannel => 7
  | .authority => 8

def tableOfNumber : Nat → Option TableName
  | 0 => some .header
  | 1 => some .storey
  | 2 => some .zoneRecord
  | 3 => some .detection
  | 4 => some .plan
  | 5 => some .step
  | 6 => some .translation
  | 7 => some .defaultChannel
  | 8 => some .authority
  | _ => none

/-- The number of entries of each table (file 01, section 1.1). -/
def tableEntries : TableName → Nat
  | .header => 1
  | .storey => 96
  | .zoneRecord => 128
  | .detection => 512
  | .plan => 16
  | .step => 256
  | .translation => 48
  | .defaultChannel => 3
  | .authority => 32

/-- Ascending order of table number and then of index (R8). -/
def entryBefore (a b : EntryRef) : Bool :=
  tableNumber a.table < tableNumber b.table || (tableNumber a.table == tableNumber b.table && a.index < b.index)

/-- The entry of an image that `r` names. -/
def Image.entry (im : Image) (r : EntryRef) : Entry :=
  match r.table with
  | .header => .header im.header
  | .storey => .storey (im.storeys.get r.index)
  | .zoneRecord => .zoneRecord (im.zones.get r.index)
  | .detection => .detection (im.detections.get r.index)
  | .plan => .plan (im.plans.get r.index)
  | .step => .step (im.steps.get r.index)
  | .translation => .translation (im.translations.get r.index)
  | .defaultChannel => .defaultChannel (im.defaults.get r.index)
  | .authority => .authority (im.authorities.get r.index)

/-- The image with entry `index` of the table that `e` belongs to replaced by `e`. -/
def Image.setEntry (im : Image) (index : Nat) : Entry → Image
  | .header e => { im with header := e }
  | .storey e => { im with storeys := im.storeys.set index e }
  | .zoneRecord e => { im with zones := im.zones.set index e }
  | .detection e => { im with detections := im.detections.set index e }
  | .plan e => { im with plans := im.plans.set index e }
  | .step e => { im with steps := im.steps.set index e }
  | .translation e => { im with translations := im.translations.set index e }
  | .defaultChannel e => { im with defaults := im.defaults.set index e }
  | .authority e => { im with authorities := im.authorities.set index e }

/-- The power-on contents of an entry of a table (R9, R10, R12 to R16, R19, R20). -/
def Entry.powerOn : TableName → Entry
  | .header => .header .powerOn
  | .storey => .storey .powerOn
  | .zoneRecord => .zoneRecord .powerOn
  | .detection => .detection .powerOn
  | .plan => .plan none
  | .step => .step .powerOn
  | .translation => .translation none
  | .defaultChannel => .defaultChannel 0
  | .authority => .authority none

/-! ### Check codes and CORRUPT marks (R5, R6) -/

/-- By how much the stored code of `r` differs from the code over the fields it was computed over (log 7). -/
def flipOf (r : EntryRef) : List (EntryRef × BitVec 16) → BitVec 16
  | [] => 0
  | (q, x) :: rest => if q = r then x else flipOf r rest

/-- A marked entry: its CORRUPT mark is set. -/
def State.marked (s : State) (r : EntryRef) : Bool := decide (r ∈ s.tables.marks)

/-- The check of an entry passes: the fields as stored are those the code was computed over, and the stored code has not
been altered (R5). -/
def State.passes (s : State) (r : EntryRef) : Bool :=
  decide (s.tables.fields.entry r = s.tables.coded.entry r) && decide (flipOf r s.tables.codeFlips = 0)

/-- Marks are kept in ascending order of table number and then of index. -/
def insertMark (r : EntryRef) : List EntryRef → List EntryRef
  | [] => [r]
  | q :: rest => if r = q then q :: rest else if entryBefore r q then r :: q :: rest else q :: insertMark r rest

/-- The state with the CORRUPT mark of `r` set, nothing else changed. -/
def State.setMark (s : State) (r : EntryRef) : State :=
  s.onTables fun t => { t with marks := insertMark r t.marks }

/-- `indices n p` lists the indices below `n` that meet `p`, in ascending order. -/
def indices (n : Nat) (p : Nat → Bool) : List Nat := (List.range n).filter p

end Sys2Proof.Machine
end

