-- ==== Sys2Proof/Machine/Flags.lean ====
section
/-! DEFINITION. The Fault Unit (file 09): the Fault List with its overflow flag, the notification queue with its
enabled and overrun flags, and the commands that act on them alone. -/

namespace Sys2Proof.Machine

/-- The outcome of a command. -/
abbrev Out := Host.Outcome State Fault Refusal

/-! ### Notifications (R173, R174) -/

/-- The sequence number a notification entered now would take (R174). -/
def FaultUnit.nextNumber (u : FaultUnit) : Nat := (u.sequence + 1) % 256

/-- A notification entered at the end of the queue with the next sequence number (R174). -/
def FaultUnit.enter (n : Notice) (u : FaultUnit) : FaultUnit :=
  { u with sequence := u.nextNumber, queue := u.queue ++ [{ number := u.nextNumber, notice := n }] }

/-- A notification handed to the Fault Unit: discarded, entered, or refused with the overrun flag set (R173). -/
def FaultUnit.take (n : Notice) (u : FaultUnit) : FaultUnit :=
  if u.enabled = false then u
  else if u.queue.length < 32 then u.enter n
  else { u with overrun := true }

/-- A block hands a notification to the Fault Unit (R173). -/
def notify (n : Notice) (s : State) : State := s.onFaultUnit (FaultUnit.take n)

/-! ### The Fault List (R169 to R172) -/

/-- A fault is listed when an entry has its kind and object (R170). -/
def FaultUnit.listed (f : FaultId) (u : FaultUnit) : Bool := u.list.any fun e => decide (e.fault = f)

/-- A request to add a fault, at the given seconds count (R170). -/
def FaultUnit.add (f : FaultId) (seconds : Nat) (u : FaultUnit) : FaultUnit :=
  if u.listed f then u
  else if u.list.length < 64 then
    FaultUnit.take (.faultAdded f seconds) { u with list := u.list ++ [{ fault := f, stamp := seconds }] }
  else { u with overflow := true }

/-- The Fault List as given; the overflow flag is cleared when that leaves it empty (R172). -/
def FaultUnit.withList (l : List FaultEntry) (u : FaultUnit) : FaultUnit :=
  { u with list := l, overflow := u.overflow && !l.isEmpty }

/-- A request to remove a fault, at the given seconds count (R171). -/
def FaultUnit.remove (f : FaultId) (seconds : Nat) (u : FaultUnit) : FaultUnit :=
  if u.listed f then
    FaultUnit.take (.faultRemoved f seconds) (u.withList (u.list.filter fun e => decide (e.fault ≠ f)))
  else u

/-- Whether a fault is a TABLE_CORRUPT. -/
def isTableCorrupt : FaultId → Bool
  | .tableCorrupt _ => true
  | _ => false

/-- The removal of every TABLE_CORRUPT fault as one request, in list order (R171). -/
def FaultUnit.removeTableCorrupt (seconds : Nat) (u : FaultUnit) : FaultUnit :=
  let gone := u.list.filter fun e => isTableCorrupt e.fault
  if gone.isEmpty then u
  else
    gone.foldl (fun v e => FaultUnit.take (.faultRemoved e.fault seconds) v)
      (u.withList (u.list.filter fun e => !isTableCorrupt e.fault))

/-- A block asks for a fault; the entry is stamped with the seconds count (R106, R170). -/
def addFault (f : FaultId) (s : State) : State := s.onFaultUnit (FaultUnit.add f s.timer.seconds)

/-- A block asks for the removal of a fault (R171). -/
def removeFault (f : FaultId) (s : State) : State := s.onFaultUnit (FaultUnit.remove f s.timer.seconds)

/-- Whether a fault is listed. -/
def State.listed (s : State) (f : FaultId) : Bool := s.faultUnit.listed f

/-! ### The commands -/

/-- ADD_FAULT (R170). -/
def execAddFault (fault : FaultId) (s : State) : Out := .next (addFault fault s)

/-- REMOVE_FAULT (R171). -/
def execRemoveFault (fault : FaultId) (s : State) : Out := .next (removeFault fault s)

/-- QUEUE_NOTIFICATION (R173). -/
def execQueueNotification (notice : Notice) (s : State) : Out := .next (notify notice s)

end Sys2Proof.Machine
end

