-- ==== Sys2Proof/Machine/Operands.lean ====
section
/-! DEFINITION. The operand forms of file 10: numbers and bit sets as bytes, the CRC, entry images, and the cells from which
the commands' operands are read and in which the part's answers are sent. -/

namespace Sys2Proof.Machine

/-! ### Numbers and bit sets (file 10: high byte first, bit 0 least significant) -/

def byte (n : Nat) : Byte := BitVec.ofNat 8 n

/-- A two-byte number, high byte first. -/
def bytes2 (n : Nat) : List Byte := [byte (n / 256), byte n]

/-- A four-byte number, high byte first. -/
def bytes4 (n : Nat) : List Byte := [byte (n / 16777216), byte (n / 65536), byte (n / 256), byte n]

/-- The value of byte `i`. -/
def byteAt (l : List Byte) (i : Nat) : Nat := (l.getD i 0).toNat

/-- The value of the two-byte number at byte `i`. -/
def wordAt (l : List Byte) (i : Nat) : Nat := byteAt l i * 256 + byteAt l (i + 1)

/-- The first `n` bytes of `l`, followed by zeros where `l` is shorter. -/
def padTo (n : Nat) (l : List Byte) : List Byte := (l ++ List.replicate n 0).take n

def flag (b : Bool) : Nat := if b then 1 else 0

/-- `2 ^ j` for a set bit `j`. -/
def bitValue (b : Bool) (j : Nat) : Nat := if b then 2 ^ j else 0

/-- A byte whose bit `j` is `f j`. -/
def packByte (f : Nat → Bool) : Byte :=
  byte ((List.range 8).foldl (fun n j => n + bitValue (f j) j) 0)

/-- `n` bytes, byte `k` holding items `8k` to `8k + 7` with bit `j` for item `8k + j` (file 10, the present bits). -/
def packBits (n : Nat) (f : Nat → Bool) : List Byte :=
  (List.range n).map fun k => packByte fun j => f (8 * k + j)

/-- Item `i` of a packed bit set that starts at byte `start`. -/
def bitAt (l : List Byte) (start i : Nat) : Bool := (byteAt l (start + i / 8)).testBit (i % 8)

/-! ### The frame check and cell CRC (R179, R180) -/

/-- One bit into the CRC register: polynomial x^16 + x^12 + x^5 + 1 (R179). -/
def crcBit (r : BitVec 16) (b : Bool) : BitVec 16 :=
  if r.msb ^^ b then (r <<< 1) ^^^ 0x1021#16 else r <<< 1

/-- One byte into the CRC register, most significant bit first (R179). -/
def crcByte (r : BitVec 16) (x : Byte) : BitVec 16 :=
  [7, 6, 5, 4, 3, 2, 1, 0].foldl (fun q j => crcBit q (x.getLsbD j)) r

/-- The CRC-16 of R179 over the bytes, from the starting value 0xFFFF. -/
def crc16 (l : List Byte) : Nat := (l.foldl crcByte 0xFFFF#16).toNat

/-- The bytes followed by their CRC. -/
def withCrc (l : List Byte) : List Byte := l ++ bytes2 (crc16 l)

/-- A received frame of `n` covered bytes is good: it has them and the two check bytes, and the check agrees (R179). -/
def frameGood (n : Nat) (l : List Byte) : Bool :=
  decide (l.length = n + 2) && decide (crc16 (l.take n) = wordAt l n)

/-! ### Entry images (R181) -/

/-- The number a signed byte holds. -/
def signedByte (n : Nat) : Int := if n < 128 then (n : Int) else (n : Int) - 256

/-- A number as a signed byte. -/
def ofSigned (i : Int) : Byte := BitVec.ofInt 8 i

/-- A step index with 0xFFFF for EMPTY or END. -/
def stepBytes : Option Nat → List Byte
  | none => [0xFF, 0xFF]
  | some n => bytes2 n

def authorityCode : Authority → Nat
  | .monitor => 1
  | .operate => 2
  | .configure => 3

/-- The fields of an entry image, without the zeros that fill it to 12 bytes. -/
def entryFields : Entry → List Byte
  | .header h =>
    [byte h.storeyCount] ++ bytes2 h.confirmWindow ++ bytes2 h.allClearPeriod ++
      [byte h.tickInterval, byte h.settleCount, byte h.deferralLimit] ++ bytes2 h.confirmTimeout ++
      bytes2 h.retryInterval
  | .storey e => [byte e.first, byte e.count]
  | .zoneRecord e =>
    [byte e.group, byte e.baseTrim, byte e.baseMask, byte (flag e.supervised), byte e.low, byte e.high]
  | .detection e =>
    [byte (flag e.mapped), byte e.storey, byte e.plan, byte (flag e.confirmRequired), byte (flag e.preAlert)]
  | .plan e => stepBytes e
  | .step e =>
    [byte (match e.scope with | .relative => 0 | .all => 1)] ++ bytes2 e.delay ++
      [ofSigned e.offset, byte e.length, byte (match e.kind with | .alert => 0 | .evacuate => 1),
        byte (flag e.carry)] ++ stepBytes e.next
  | .translation e => [byte (e.getD 255)]
  | .defaultChannel e => [byte e]
  | .authority none => [0]
  | .authority (some e) => [1, byte e.station, byte (authorityCode e.authority)]

/-- The 12-byte image in which an entry travels (R181). -/
def entryImage (e : Entry) : List Byte := padTo 12 (entryFields e)

/-- The 16-bit check code stored with an entry (R5). -/
def State.storedCode (s : State) (r : EntryRef) : BitVec 16 :=
  Config.checkCode (tableNumber r.table) (entryImage (s.tables.coded.entry r)) ^^^ flipOf r s.tables.codeFlips

/-- A step index 0-255, EMPTY or END for 0xFFFF, or nothing when the number is neither. -/
def readStep (n : Nat) : Option (Option Nat) :=
  if n = 65535 then some none else if n ≤ 255 then some (some n) else none

/-- A number within its range, or nothing. -/
def ranged (low high n : Nat) : Option Nat := if low ≤ n ∧ n ≤ high then some n else none

/-- A yes or no field, or nothing for another code. -/
def readFlag : Nat → Option Bool
  | 0 => some false
  | 1 => some true
  | _ => none

def readAuthority : Nat → Option Authority
  | 1 => some .monitor
  | 2 => some .operate
  | 3 => some .configure
  | _ => none

/-- The Building Header an image holds, every field in its range (R9). -/
def readHeader (b : List Byte) : Option Header := do
  let storeyCount ← ranged 0 96 (byteAt b 0)
  let confirmWindow ← ranged 10 600 (wordAt b 1)
  let allClearPeriod ← ranged 0 600 (wordAt b 3)
  let tickInterval ← ranged 1 255 (byteAt b 5)
  let settleCount ← ranged 8 255 (byteAt b 6)
  let deferralLimit ← ranged 1 16 (byteAt b 7)
  let confirmTimeout ← ranged 20 1000 (wordAt b 8)
  let retryInterval ← ranged 100 5000 (wordAt b 10)
  return { storeyCount, confirmWindow, allClearPeriod, tickInterval, settleCount, deferralLimit, confirmTimeout,
           retryInterval }

/-- The Storey Table entry an image holds (R10). -/
def readStorey (b : List Byte) : Option Storey := do
  let first ← ranged 0 127 (byteAt b 0)
  let count ← ranged 0 8 (byteAt b 1)
  return { first, count }

/-- The Zone Record an image holds (R12). -/
def readZoneRecord (b : List Byte) : Option ZoneRecord := do
  let group ← ranged 0 15 (byteAt b 0)
  let baseTrim ← ranged 0 31 (byteAt b 1)
  let baseMask ← ranged 0 6 (byteAt b 2)
  let supervised ← readFlag (byteAt b 3)
  return { group, baseTrim, baseMask, supervised, low := byteAt b 4, high := byteAt b 5 }

/-- The Detection Map entry an image holds; an UNMAPPED entry's other fields are stored too (R13). -/
def readDetection (b : List Byte) : Option DetectionEntry := do
  let mapped ← readFlag (byteAt b 0)
  let storey ← ranged 0 95 (byteAt b 1)
  let plan ← ranged 0 15 (byteAt b 2)
  let confirmRequired ← readFlag (byteAt b 3)
  let preAlert ← readFlag (byteAt b 4)
  return { mapped, storey, plan, confirmRequired, preAlert }

/-- The Step Pool record an image holds (R20). -/
def readStepRecord (b : List Byte) : Option StepRecord := do
  let all ← readFlag (byteAt b 0)
  let delay ← ranged 0 3600 (wordAt b 1)
  let offset ← if -95 ≤ signedByte (byteAt b 3) ∧ signedByte (byteAt b 3) ≤ 95 then some (signedByte (byteAt b 3))
    else none
  let length ← ranged 1 96 (byteAt b 4)
  let evacuate ← readFlag (byteAt b 5)
  let carry ← readFlag (byteAt b 6)
  let next ← readStep (wordAt b 7)
  return { scope := if all then .all else .relative, delay, offset, length,
           kind := if evacuate then .evacuate else .alert, carry, next }

/-- The Message Translation Table entry an image holds (R14). -/
def readTranslation (b : List Byte) : Option (Option Nat) :=
  if byteAt b 0 = 255 then some none else (ranged 0 31 (byteAt b 0)).map some

/-- The Station Authority Table position an image holds (R16, R181). -/
def readAuthorityRow (b : List Byte) : Option (Option AuthorityRow) := do
  let held ← readFlag (byteAt b 0)
  if held then
    let station ← ranged 1 254 (byteAt b 1)
    let authority ← readAuthority (byteAt b 2)
    return some { station, authority }
  else return none

/-- The entry of a table that an image holds, or nothing when a field is outside its range (R162, R181). -/
def readEntry (t : TableName) (b : List Byte) : Option Entry :=
  match t with
  | .header => (readHeader b).map .header
  | .storey => (readStorey b).map .storey
  | .zoneRecord => (readZoneRecord b).map .zoneRecord
  | .detection => (readDetection b).map .detection
  | .plan => (readStep (wordAt b 0)).map .plan
  | .step => (readStepRecord b).map .step
  | .translation => (readTranslation b).map .translation
  | .defaultChannel => (ranged 0 31 (byteAt b 0)).map .defaultChannel
  | .authority => (readAuthorityRow b).map .authority

/-! ### Cells (file 10, section 10.2) -/

/-- A cell of 64 bytes with its CRC: the payload is filled to 58 bytes with zeros (R180). -/
def makeCell (destination source type tag : Nat) (payload : List Byte) : List Byte :=
  withCrc ([byte destination, byte source, byte type, byte tag] ++ padTo 58 payload)

/-- A cell's CRC is good (R180). -/
def cellGood (c : List Byte) : Bool := frameGood 62 c

/-- The four segments of a cell, the marker set on the first (file 10). -/
def segmentsOf (c : List Byte) : List Segment :=
  [{ marker := true, bytes := c.take 16 }, { marker := false, bytes := (c.drop 16).take 16 },
    { marker := false, bytes := (c.drop 32).take 16 }, { marker := false, bytes := (c.drop 48).take 16 }]

/-- An idle segment: the marker clear and 16 zero bytes (file 10). -/
def idleSegment : Segment := { marker := false, bytes := List.replicate 16 0 }

/-- The segment control byte and the segment (file 10). -/
def segmentBytes (g : Segment) : List Byte := byte (flag g.marker) :: g.bytes

/-- The selection a CLAIM cell carries (file 10). -/
def readSelection (c : List Byte) : SelectionField :=
  match byteAt c 6 with
  | 0 => .span (byteAt c 7) (byteAt c 8)
  | 1 => .groups (BitVec.ofNat 16 (wordAt c 7))
  | form => .unknown form

/-- The report a DETECT cell carries (R35, R36). -/
def readDetect (c : List Byte) : Instr :=
  if 511 < wordAt c 4 then .detectDiscard (wordAt c 4) (byteAt c 6)
  else
    match byteAt c 6 with
    | 1 => .fire (wordAt c 4)
    | 2 => .restore (wordAt c 4)
    | 3 => .dfault (wordAt c 4)
    | 4 => .dfaultClear (wordAt c 4)
    | event => .detectDiscard (wordAt c 4) event

/-- The request a management request cell carries, by the request types of file 10, section 10.2. -/
def readRequest (c : List Byte) : Instr :=
  let q : Sender := { station := byteAt c 1, tag := byteAt c 3 }
  match byteAt c 4 with
  | 1 => .bind q (byteAt c 5) (byteAt c 6)
  | 2 => .status q
  | 3 => .readEntry q (byteAt c 5) (wordAt c 6) (byteAt c 8)
  | 4 => .readLine q (byteAt c 5) (wordAt c 6) (byteAt c 8)
  | 5 => .readState q (byteAt c 5) (byteAt c 6) (wordAt c 7)
  | 6 => .find q (byteAt c 5) (byteAt c 6) (byteAt c 7) (BitVec.ofNat 8 (byteAt c 8))
  | 7 => .editBegin q
  | 8 => .writeEntry q (byteAt c 5) (wordAt c 6) ((c.drop 8).take 12)
  | 9 => .writeLine q (byteAt c 5) (wordAt c 6) ((c.drop 8).take 48)
  | 10 => .editCommit q
  | 11 => .editCancel q
  | 12 => .setMask q (byteAt c 5) (byteAt c 6) (byteAt c 7)
  | 13 => .setTrim q (byteAt c 5) (byteAt c 6) (byteAt c 7)
  | 14 => .hold q (byteAt c 5)
  | 15 => .resume q (byteAt c 5)
  | 16 => .advance q (byteAt c 5)
  | 17 => .resetIncident q (byteAt c 5)
  | 18 => .evacuateAll q
  | 19 => .resetAll q
  | 20 => .sweep q (byteAt c 5)
  | 21 => .enableNotices q
  | 22 => .disableNotices q
  | 23 => .restart q
  | other => .unknownRequest q other

/-- The command a cell of a taken type carries; none for a type that is not taken, or an ANSWER with a code other than
1 to 4, which is discarded (R149, R90). -/
def readCell (c : List Byte) : Option Instr :=
  let q : Sender := { station := byteAt c 1, tag := byteAt c 3 }
  match byteAt c 2 with
  | 1 => some (readDetect c)
  | 2 => some (.claim q (byteAt c 4) (byteAt c 5) (readSelection c))
  | 3 => some (.release q.station (byteAt c 4))
  | 4 =>
    match byteAt c 5 with
    | 1 => some (.answerReady q.station (byteAt c 4) q.tag)
    | 2 => some (.answerDefault q.station (byteAt c 4) q.tag)
    | 3 => some (.answerWithdraw q.station (byteAt c 4) q.tag)
    | 4 => some (.answerWait q.station (byteAt c 4) q.tag)
    | _ => none
  | 5 => some (readRequest c)
  | _ => none

/-! ### Codes of the enumerated fields (R182) -/

def statusCode : Status → Nat
  | .ok => 0
  | .denied => 1
  | .notBound => 2
  | .alreadyBound => 3
  | .unknownRequest => 4
  | .badTable => 5
  | .badIndex => 6
  | .badValue => 7
  | .badState => 8
  | .notFound => 9
  | .editBusy => 10
  | .noEdit => 11
  | .notOwner => 12
  | .incidentActive => 13
  | .validation => 14
  | .full => 15

def newsCode : IncidentNews → Nat
  | .confirming => 1
  | .active => 2
  | .held => 3
  | .removed => 4

def causeCode : Option GeneralCause → Nat
  | none => 0
  | some .unmapped => 1
  | some .overflow => 2
  | some .planFault => 3
  | some .officer => 4

def dropCode : DropReason → Nat
  | .noAnswer => 1
  | .withdrawn => 2
  | .retryLimit => 3
  | .channelBusy => 4
  | .table => 5
  | .sourceLost => 6
  | .link => 7
  | .restart => 8

def planKindCode : PlanKind → Nat
  | .alert => 0
  | .evacuate => 1
  | .allClear => 2

def demandCode : Demand → Nat
  | .none => 0
  | .alert => 1
  | .evacuate => 2

def presenceCode : Presence → Nat
  | .absent => 0
  | .present => 1
  | .lost => 2

def sLinkCode : SLink → Nat
  | .down => 0
  | .hunt => 1
  | .up => 2
  | .island => 3

def zLinkCode : ZLink → Nat
  | .down => 0
  | .up => 1

/-- The place of a result in the last-result list of R126. -/
def failCode : FailKind → Nat
  | .lineOpen => 1
  | .lineShort => 2
  | .earth => 3
  | .ampFail => 4
  | .noReport => 5

/-- The place of a result in the last-result list of R126. -/
def resultCode : LastResult → Nat
  | .normal => 0
  | .failed k => failCode k
  | .busySkipped => 6
  | .notTested => 7

def stepStateCode : StepState → Nat
  | .idle => 0
  | .deferred _ _ => 1
  | .pilot _ => 2
  | .settle _ _ => 3
  | .sample _ _ => 4

/-- The kind and object of a fault in four bytes (file 10, section 10.2). -/
def faultBytes : FaultId → List Byte
  | .lineOpen z => [1, 0] ++ bytes2 z
  | .lineShort z => [2, 0] ++ bytes2 z
  | .earth z => [3, 0] ++ bytes2 z
  | .ampFail z => [4, 0] ++ bytes2 z
  | .noReport z => [5, 0] ++ bytes2 z
  | .zoneDisabled z => [6, 0] ++ bytes2 z
  | .sourceLost c => [7, 0] ++ bytes2 c
  | .detectorFault d => [8, 0] ++ bytes2 d
  | .sLink => [9, 0, 0, 0]
  | .zLink => [10, 0, 0, 0]
  | .tableCorrupt r => [11, byte (tableNumber r.table)] ++ bytes2 r.index

/-- A return report as in the return frame (file 10). -/
def reportBytes (r : Report) : List Byte :=
  [byte r.load, packByte fun j => if j = 0 then r.valid else if j = 1 then r.earth else if j = 2 then r.ampFailed else false]

/-- The report of two bytes at byte `i` of a return frame (file 10). -/
def readReport (l : List Byte) (i : Nat) : Report :=
  { valid := (byteAt l (i + 1)).testBit 0, load := byteAt l i, earth := (byteAt l (i + 1)).testBit 1,
    ampFailed := (byteAt l (i + 1)).testBit 2 }

/-- The selection form and fields of a claim record (R182). -/
def selectionBytes : Selection → List Byte
  | .span f n => [0, byte f, byte n]
  | .groups g => 1 :: bytes2 g.toNat

/-! ### Cells the part originates (R180) -/

/-- The payload of a notification (R174, R182). -/
def noticePayload : Notice → List Byte
  | .incident id news => [1, byte id, byte (newsCode news)]
  | .general isSet cause => [2, byte (flag isSet), byte (causeCode (some cause))]
  | .incidentOverflow dz => 3 :: bytes2 dz
  | .claimDropped slot station reason => [4, byte slot, byte station, byte (dropCode reason)]
  | .faultAdded f stamp => 5 :: faultBytes f ++ bytes4 stamp
  | .faultRemoved f stamp => 6 :: faultBytes f ++ bytes4 stamp
  | .editEnded how => [7, byte (match how with | .broken => 1 | .expired => 2)]
  | .snapshot faults incidents general =>
    [8, byte faults, byte incidents, byte (flag general.isSome), byte (causeCode general)]
  | .overrun => [9]

/-- The result and slot bytes of a claim response (file 10). -/
def claimResultBytes : ClaimResult → List Byte
  | .accepted k => [0, byte k]
  | .notBound => [1, 255]
  | .denied => [2, 255]
  | .badLevel => [3, 255]
  | .badValue => [4, 255]
  | .channelBusy => [5, 255]
  | .full => [6, 255]

/-- The cell of an answer (R152, R180). -/
def answerCell (a : Answer) : List Byte :=
  match a.body with
  | .response t st data => makeCell a.station a.source 6 a.tag ([byte t, byte (statusCode st)] ++ data)
  | .claimResponse r => makeCell a.station a.source 7 a.tag (claimResultBytes r)

/-- The cell of a CONFIRM REQUEST sent from the part's address (R89, R180). -/
def confirmCell (source : Nat) (c : ConfirmRequest) : List Byte :=
  makeCell c.station source 8 c.number [byte c.slot, byte c.level, byte c.channel]

/-- The cell of a notification, to the notification destination from the part's address (R174). -/
def noticeCell (destination source : Nat) (q : QueuedNotice) : List Byte :=
  makeCell destination source 9 q.number (noticePayload q.notice)

end Sys2Proof.Machine
end

