-- ==== Sys2Proof/Machine/Tables.lean ====
section
/-! DEFINITION. The Table Store (files 01 and 02): the use of an entry, the header's fields, station authority, and commit
validation. -/

namespace Sys2Proof.Machine

/-! ### The use of an entry (R6) -/

/-- A use of an entry: the state it leaves and whether the entry's fields are handed over. The effects that the marking of a
Zone Record has at once (R7) are added by `useZone`. -/
def useEntry (r : EntryRef) (s : State) : State × Bool :=
  if s.marked r then (addFault (.tableCorrupt r) s, false)
  else if s.passes r then (s, true)
  else (addFault (.tableCorrupt r) (s.setMark r), false)

def headerRef : EntryRef := { table := .header, index := 0 }
def storeyRef (i : Nat) : EntryRef := { table := .storey, index := i }
def zoneRef (z : Nat) : EntryRef := { table := .zoneRecord, index := z }
def detectionRef (d : Nat) : EntryRef := { table := .detection, index := d }
def planRef (p : Nat) : EntryRef := { table := .plan, index := p }
def stepRef (i : Nat) : EntryRef := { table := .step, index := i }
def translationRef (i : Nat) : EntryRef := { table := .translation, index := i }
def defaultRef (i : Nat) : EntryRef := { table := .defaultChannel, index := i }
def authorityRef (i : Nat) : EntryRef := { table := .authority, index := i }

/-- A timing or period field of the in-effect header: the power-on value where the header is marked (R9). -/
def readTiming (f : Header → Nat) (s : State) : State × Nat :=
  match useEntry headerRef s with
  | (t, true) => (t, f s.tables.fields.header)
  | (t, false) => (t, f .powerOn)

/-- The storey count, or nothing where the header is marked (R9). -/
def readStoreyCount (s : State) : State × Option Nat :=
  match useEntry headerRef s with
  | (t, true) => (t, some s.tables.fields.header.storeyCount)
  | (t, false) => (t, none)

/-- The zones a span covers (R10). -/
def Storey.zones (e : Storey) : List Nat := (List.range e.count).map (e.first + ·)

/-- The zones of a storey's span, or nothing where its entry is marked (R10). -/
def readSpan (storey : Nat) (s : State) : State × Option (List Nat) :=
  match useEntry (storeyRef storey) s with
  | (t, true) => (t, some (s.tables.fields.storeys.get storey).zones)
  | (t, false) => (t, none)

/-! ### Station authority (R16, R17) -/

/-- MONITOR is included in OPERATE, and both in CONFIGURE; NONE meets no requirement (R17). -/
def Authority.meets (need : Authority) : Option Authority → Bool
  | none => false
  | some a => authorityCode need ≤ authorityCode a

/-- The in-effect table is empty: all positions VACANT, none marked (R16). -/
def State.noAuthorities (s : State) : Bool :=
  s.tables.fields.authorities.items.all (fun e => e.isNone) &&
    s.tables.marks.all (fun r => decide (r.table ≠ .authority))

/-- The search for station `a` from position `i`, over at most `fuel` positions (R16). -/
def searchAuthority (a : Nat) : Nat → Nat → State → State × Option Authority
  | 0, _, s => (s, none)
  | fuel + 1, i, s =>
    match useEntry (authorityRef i) s with
    | (t, false) => searchAuthority a fuel (i + 1) t
    | (t, true) =>
      match s.tables.fields.authorities.get i with
      | none => (t, none)
      | some e => if e.station = a then (t, some e.authority) else searchAuthority a fuel (i + 1) t

/-- The authority lookup of a station (R16). -/
def authorityOf (a : Nat) (s : State) : State × Option Authority :=
  if s.noAuthorities then (s, some .configure) else searchAuthority a 32 0 s

/-! ### Commit validation (R11 to R13, R16, R18, R22) -/

/-- The reasons of a failed validation, in the order of file 10, section 10.2. -/
inductive Reason where
  | range
  | overlap
  | order
  | chainLoop
  | chainLength
  | delayOrder
  | duplicate
  deriving DecidableEq, Repr

def reasonCode : Reason → Nat
  | .range => 1
  | .overlap => 2
  | .order => 3
  | .chainLoop => 4
  | .chainLength => 5
  | .delayOrder => 6
  | .duplicate => 7

/-- The table, index and reason of a failure. -/
structure Failure where
  entry : EntryRef
  reason : Reason
  deriving DecidableEq, Repr

/-- The Storey Table checks from storey `k` on, with `count` the staging storey count and `below` the first and last zone of
the nearest non-empty storey below (R11). -/
def checkStoreys (count : Nat) : Nat → Option (Nat × Nat) → List Storey → Option Failure
  | _, _, [] => none
  | k, below, e :: rest =>
    if count ≤ k then
      if e.count ≠ 0 then some { entry := storeyRef k, reason := .range } else checkStoreys count (k + 1) below rest
    else if e.count = 0 then checkStoreys count (k + 1) below rest
    else if 127 < e.first + e.count - 1 then some { entry := storeyRef k, reason := .range }
    else
      match below with
      | none => checkStoreys count (k + 1) (some (e.first, e.first + e.count - 1)) rest
      | some (first, last) =>
        if e.first < first then some { entry := storeyRef k, reason := .order }
        else if e.first ≤ last then some { entry := storeyRef k, reason := .overlap }
        else checkStoreys count (k + 1) (some (e.first, e.first + e.count - 1)) rest

/-- The Zone Record checks from zone `k` on (R12). -/
def checkZones : Nat → List ZoneRecord → Option Failure
  | _, [] => none
  | k, e :: rest =>
    if e.high < e.low then some { entry := zoneRef k, reason := .order } else checkZones (k + 1) rest

/-- The Detection Map checks from detection zone `k` on (R13). -/
def checkDetections (count : Nat) : Nat → List DetectionEntry → Option Failure
  | _, [] => none
  | k, e :: rest =>
    if e.mapped = true ∧ count ≤ e.storey then some { entry := detectionRef k, reason := .range }
    else checkDetections count (k + 1) rest

/-- The walk of one chain at step `k`: `walked` are the steps walked before it, `floor` the delay of the last of them, and
`left` how many steps the walk may still take, this one included (R22). -/
def walkChain (steps : Tab StepRecord 256) : Nat → List Nat → Nat → Nat → Option Failure
  | 0, _, _, k => some { entry := stepRef k, reason := .chainLength }
  | left + 1, walked, floor, k =>
    let e := steps.get k
    if e.delay < floor then some { entry := stepRef k, reason := .delayOrder }
    else
      match e.next with
      | none => none
      | some n =>
        if n = k ∨ n ∈ walked then some { entry := stepRef k, reason := .chainLoop }
        else if left = 0 then some { entry := stepRef k, reason := .chainLength }
        else walkChain steps left (k :: walked) e.delay n

/-- The plan chains from plan to plan (R22). -/
def checkPlans (steps : Tab StepRecord 256) : List (Option Nat) → Option Failure
  | [] => none
  | none :: rest => checkPlans steps rest
  | some k :: rest =>
    match walkChain steps 32 [] 0 k with
    | some f => some f
    | none => checkPlans steps rest

/-- The Station Authority Table checks from position `k` on; `vacant` when a position below is VACANT, `before` the station
of the entry before (R16). -/
def checkAuthorities : Nat → Bool → Option Nat → List (Option AuthorityRow) → Option Failure
  | _, _, _, [] => none
  | k, _, before, none :: rest => checkAuthorities (k + 1) true before rest
  | k, vacant, before, some e :: rest =>
    if vacant then some { entry := authorityRef k, reason := .order }
    else
      match before with
      | none => checkAuthorities (k + 1) false (some e.station) rest
      | some b =>
        if e.station = b then some { entry := authorityRef k, reason := .duplicate }
        else if e.station < b then some { entry := authorityRef k, reason := .order }
        else checkAuthorities (k + 1) false (some e.station) rest

/-- The first failure of the staging image, in the order of R18. -/
def validate (im : Image) : Option Failure :=
  match checkStoreys im.header.storeyCount 0 none im.storeys.items with
  | some f => some f
  | none =>
    match checkZones 0 im.zones.items with
    | some f => some f
    | none =>
      match checkDetections im.header.storeyCount 0 im.detections.items with
      | some f => some f
      | none =>
        match checkPlans im.steps im.plans.items with
        | some f => some f
        | none => checkAuthorities 0 false none im.authorities.items

/-! ### The entries that fail a check, table by table (R2) -/

/-- The indices from `k` on at which the two lists differ or the code is altered. -/
def differing {α : Type} [DecidableEq α] (altered : Nat → Bool) : Nat → List α → List α → List Nat
  | k, a :: as, b :: bs =>
    if a = b ∧ altered k = false then differing altered (k + 1) as bs else k :: differing altered (k + 1) as bs
  | _, _, _ => []

/-- The entries of a table that fail their check as stored. -/
def failingIn (s : State) (t : TableName) : List EntryRef :=
  let altered := fun i => decide (flipOf { table := t, index := i } s.tables.codeFlips ≠ 0)
  let a := s.tables.fields
  let b := s.tables.coded
  let found := match t with
    | .header => differing altered 0 [a.header] [b.header]
    | .storey => differing altered 0 a.storeys.items b.storeys.items
    | .zoneRecord => differing altered 0 a.zones.items b.zones.items
    | .detection => differing altered 0 a.detections.items b.detections.items
    | .plan => differing altered 0 a.plans.items b.plans.items
    | .step => differing altered 0 a.steps.items b.steps.items
    | .translation => differing altered 0 a.translations.items b.translations.items
    | .defaultChannel => differing altered 0 a.defaults.items b.defaults.items
    | .authority => differing altered 0 a.authorities.items b.authorities.items
  found.map fun i => { table := t, index := i }

/-- Every table, in ascending number. -/
def allTables : List TableName :=
  [.header, .storey, .zoneRecord, .detection, .plan, .step, .translation, .defaultChannel, .authority]

/-- Every entry that fails its check as stored, in ascending order of table number and then of index. -/
def failing (s : State) : List EntryRef := allTables.flatMap (failingIn s)

/-- Every marked entry, in ascending order of table number and then of index (R8). -/
def markedInOrder (s : State) : List EntryRef :=
  allTables.flatMap fun t =>
    (indices (tableEntries t) fun i => s.marked { table := t, index := i }).map fun i => { table := t, index := i }

/-! ### Scrub lines (R143) -/

/-- The small entry `k`, where there is one (R143). -/
def smallEntry (k : Nat) : List EntryRef :=
  if k < 16 then [planRef k]
  else if k < 64 then [translationRef (k - 16)]
  else if k < 67 then [defaultRef (k - 64)]
  else if k = 67 then [headerRef]
  else if k < 100 then [authorityRef (k - 68)]
  else []

/-- The entries of scrub line `k`, in the order they are checked (R143). -/
def scrubEntries (k : Nat) : List EntryRef :=
  [zoneRef k] ++ (if k < 96 then [storeyRef k] else []) ++
    [detectionRef (4 * k), detectionRef (4 * k + 1), detectionRef (4 * k + 2), detectionRef (4 * k + 3)] ++
    [stepRef (2 * k), stepRef (2 * k + 1)] ++ smallEntry k

end Sys2Proof.Machine
end

