-- ==== Sys2Proof/Machine/Router.lean ====
section
/-! DEFINITION. The Cell Router's queues (file 08): response places and answers, the common handling of a request, the
confirm request queue, the forward queues and the S outbound transmitter. -/

namespace Sys2Proof.Machine

/-! ### Response places (R152) -/

/-- There is a place free for an answer (R152). -/
def State.hasPlace (s : State) : Bool := decide (s.router.places.length < 8)

/-- A place reserved for the answer to the command in hand (R152). -/
def reservePlace (q : Sender) (s : State) : State :=
  s.onRouter fun r => { r with places := r.places ++ [.reserved .command q] }

/-- The answer to a request taken from `q`, from the part's present address (R152). -/
def answerTo (q : Sender) (source : Nat) (body : AnswerBody) : Answer :=
  { station := q.station, source := source, tag := q.tag, body := body }

/-- The places with the first one reserved for `w` filled by its answer; unchanged when no place waits for `w`, so that the
answer is discarded (R152). -/
def fillPlace (w : Waiting) (source : Nat) (body : AnswerBody) : List Place → List Place
  | [] => []
  | .reserved v q :: rest =>
    if v = w then .filled (answerTo q source body) :: rest else .reserved v q :: fillPlace w source body rest
  | .filled a :: rest => .filled a :: fillPlace w source body rest

/-- An owner hands back an answer (R152). -/
def giveAnswer (w : Waiting) (body : AnswerBody) (s : State) : State :=
  s.onRouter fun r => { r with places := fillPlace w r.address body r.places }

/-- The commit that is VALIDATING is answered (R164); 10 is the request type of EDIT COMMIT (file 10). -/
def answerCommit (st : Status) (data : List Byte) (s : State) : State :=
  giveAnswer .commit (.response 10 st data) s

/-- The place of the command in hand is kept unfilled as the commit's (R164). -/
def keepForCommit (s : State) : State :=
  s.onRouter fun r =>
    { r with places := r.places.map fun p => match p with
        | .reserved .command q => .reserved .commit q
        | other => other }

/-! ### Management requests (R155) -/

/-- What the owner of a request hands back: the answer's status and data, or nothing while the answer is held back. -/
abbrev Reply := Option (Status × List Byte)

/-- Whether the request types BIND (1) and STATUS (2), which an unbound part takes (R155). -/
def takenUnbound (requestType : Nat) : Bool := requestType = 1 || requestType = 2

/-- The common handling of a request from `q` of a known type with requirement `need`: a response place, the authority
lookup, the binding, and then the owner (R152, R155). `refusal` is the data every answer to the request carries even when
refused: the incident id of an officer control (R182). -/
def request (q : Sender) (requestType : Nat) (need : Authority) (refusal : List Byte)
    (owner : State → State × Reply) (s : State) : State :=
  if s.hasPlace = false then s
  else
    match authorityOf q.station (reservePlace q s) with
    | (t, found) =>
      if need.meets found = false then giveAnswer .command (.response requestType .denied refusal) t
      else if t.router.address = 0 ∧ takenUnbound requestType = false then
        giveAnswer .command (.response requestType .notBound refusal) t
      else
        match owner t with
        | (u, some (st, data)) => giveAnswer .command (.response requestType st data) u
        | (u, none) => u

/-! ### Confirm requests (R154) -/

/-- A CONFIRM REQUEST handed to the Cell Router: an older one for the slot is removed first (R154). -/
def queueConfirm (c : ConfirmRequest) (s : State) : State :=
  s.onRouter fun r => { r with confirms := r.confirms.filter (fun d => decide (d.slot ≠ c.slot)) ++ [c] }

/-- The slot holds a claim in CONFIRMING whose confirm number equals the request's tag (R154). -/
def confirmCurrent (s : State) (c : ConfirmRequest) : Bool :=
  match s.arbiter.claims.get c.slot with
  | some { state := .confirming number _, .. } => decide (number = c.number)
  | _ => false

/-! ### Forward queues (R149 to R151) -/

/-- A cell with this destination goes on to the Z-port (R149). -/
def State.forwards (s : State) (destination : Nat) : Bool :=
  decide (destination = 255) || (decide (destination ≠ s.router.address))

/-- A cell appended to the S-to-Z forward queue, or discarded when it holds 8 (R150). -/
def forwardSToZ (c : List Byte) (s : State) : State :=
  if s.router.sToZ.length < 8 then s.onRouter fun r => { r with sToZ := r.sToZ ++ [c] } else s

/-- A return cell appended to the Z-to-S forward queue, or discarded when it holds 8 or the S-link is not UP (R151). -/
def forwardZToS (c : List Byte) (s : State) : State :=
  if s.sPort.link = .up ∧ s.router.zToS.length < 8 then s.onRouter fun r => { r with zToS := r.zToS ++ [c] } else s

/-! ### The S outbound transmitter (R153, R154, R175) -/

/-- A chosen cell starts on the S outbound lane (R153). -/
def startCell (c : List Byte) (s : State) : State := s.onRouter fun r => { r with sSending := segmentsOf c }

/-- The oldest notification is taken; when that leaves the queue empty with the overrun flag set, the flag is cleared and an
OVERRUN is appended (R175). -/
def FaultUnit.afterTake (rest : List QueuedNotice) (u : FaultUnit) : FaultUnit :=
  let v := { u with queue := rest }
  if rest = [] ∧ u.overrun = true then { v with overrun := false }.enter .overrun else v

/-- The choice of the notification queue (R153, R175). -/
def chooseNotice (s : State) : State :=
  match s.faultUnit.queue with
  | [] => s
  | q :: rest =>
    startCell (noticeCell (s.router.destination.getD 0) s.router.address q) (s.onFaultUnit (FaultUnit.afterTake rest))

/-- The choice of the Z-to-S forward queue, or of the next source (R153). -/
def chooseForward (s : State) : State :=
  match s.router.zToS with
  | c :: rest => startCell c (s.onRouter fun r => { r with zToS := rest })
  | [] => chooseNotice s

/-- The choice of the response queue when its oldest place is filled, or of the next source (R153). -/
def chooseResponse (s : State) : State :=
  match s.router.places with
  | .filled a :: rest => startCell (answerCell a) (s.onRouter fun r => { r with places := rest })
  | _ => chooseForward s

/-- The confirm requests from the first one that is current; those before it are removed unsent (R154). -/
def dropStale (s : State) : List ConfirmRequest → List ConfirmRequest
  | [] => []
  | c :: rest => if confirmCurrent s c then c :: rest else dropStale s rest

/-- The transmitter's choice while the S-link is UP and no cell is being sent (R153). -/
def transmitterChoice (s : State) : State :=
  if s.sPort.link ≠ .up ∨ s.router.sSending ≠ [] then s
  else
    match dropStale s s.router.confirms with
    | c :: rest => startCell (confirmCell s.router.address c) (s.onRouter fun r => { r with confirms := rest })
    | [] => chooseResponse (s.onRouter fun r => { r with confirms := [] })

/-! ### Unknown requests (R17, R155) -/

/-- A request type the part does not know is answered without a lookup (R17, R155). -/
def unknownRequest (q : Sender) (requestType : Nat) (s : State) : State :=
  if s.hasPlace = true ∧ (requestType = 0 ∨ 23 < requestType) then
    giveAnswer .command (.response requestType .unknownRequest []) (reservePlace q s)
  else s

/-! ### The commands -/

/-- RETURN_CELL_FORWARD: a return cell with a good CRC (R111, R151). -/
def execReturnCellForward (cell : List Byte) (s : State) : Out :=
  .next (if cellGood cell then forwardZToS cell s else s)

/-- CELL_FORWARD_S_TO_Z: an inbound cell with a good CRC that is to be forwarded (R149, R150). -/
def execCellForwardSToZ (cell : List Byte) (s : State) : Out :=
  .next (if cellGood cell = true ∧ s.forwards (byteAt cell 0) = true then forwardSToZ cell s else s)

/-- TRANSMITTER_CHOICE (R153). -/
def execTransmitterChoice (s : State) : Out := .next (transmitterChoice s)

/-- UNKNOWN_REQUEST (R155). -/
def execUnknownRequest (sender : Sender) (requestType : Nat) (s : State) : Out :=
  .next (unknownRequest sender requestType s)

end Sys2Proof.Machine
end

