-- ==== Sys2Proof/Machine/Arbiter.lean ====
section
/-! DEFINITION. The Zone Arbiter (file 05): masks, eligibility, holder choice, the Claim Table, the confirm exchange and the
supervision reservation; and the marking of a Zone Record (R7), which acts on it at once. -/

namespace Sys2Proof.Machine

/-! ### Levels, eligibility and selections (R77, R79, R87) -/

/-- The level of a plan claim (R77). -/
def planLevel : PlanKind → Nat
  | .alert => 4
  | .evacuate => 5
  | .allClear => 3

/-- A claim of this level is eligible under this runtime mask (R79). -/
def eligible (level mask : Nat) : Bool := decide (level = 7) || decide (mask < level)

/-- The zone group of a zone; none where its record is marked (R12). -/
def groupOf (s : State) (z : Nat) : Option Nat :=
  if s.marked (zoneRef z) then none else some (s.tables.fields.zones.get z).group

/-- A selection includes a zone (R87). -/
def selects (s : State) (sel : Selection) (z : Nat) : Bool :=
  match sel with
  | .span first count => decide (first ≤ z) && decide (z < first + count)
  | .groups set =>
    match groupOf s z with
    | some g => set.getLsbD g
    | none => false

/-- The selection is a zone-group set. -/
def Selection.isGroups : Selection → Bool
  | .span _ _ => false
  | .groups _ => true

/-! ### Masks and the marking of a Zone Record (R7, R82) -/

/-- ZONE_DISABLED asked for or removed when the mask of `z` has crossed 3 since it was `old` (R82). -/
def zoneDisabledCheck (old z : Nat) (s : State) : State :=
  if old < 3 ∧ 3 ≤ s.arbiter.masks.get z then addFault (.zoneDisabled z) s
  else if 3 ≤ old ∧ s.arbiter.masks.get z < 3 then removeFault (.zoneDisabled z) s
  else s

def setMaskOf (z v : Nat) (s : State) : State := s.onArbiter fun a => { a with masks := a.masks.set z v }

def setTrimOf (z v : Nat) (s : State) : State := s.onCrosspoint fun c => { c with trims := c.trims.set z v }

/-- What the marking of zone `z`'s record does at once, but for the zone's holder choice (R7). ZONE_DISABLED is removed before
that choice and after TABLE_CORRUPT is asked for: the model's choice (log 31). -/
def zoneMarked (z : Nat) (s : State) : State :=
  zoneDisabledCheck (s.arbiter.masks.get z) z (setTrimOf z 0 (setMaskOf z 0 s))

/-- A use of zone `z`'s record, with the effects its marking has at once but for the holder choice (R6, R7): the state, and
whether the record is handed over. -/
def touchZone (z : Nat) (s : State) : State × Bool :=
  match useEntry (zoneRef z) s with
  | (t, true) => (t, true)
  | (t, false) => if s.marked (zoneRef z) then (t, false) else (zoneMarked z t, false)

/-- Uses of several records in order: the state, and the zones newly marked. Callers list the zones in ascending order, and
make the holder choices of the newly marked ones after the last reading: the model's choice (log 36). -/
def touchZones : List Nat → State → State × List Nat
  | [], s => (s, [])
  | z :: rest, s =>
    match touchZone z s with
    | (t, ok) =>
      match touchZones rest t with
      | (u, fresh) => (u, if ok = false ∧ s.marked (zoneRef z) = false then z :: fresh else fresh)

/-! ### Holder choice (R99 to R101) -/

/-- The level and on-air stamp with which the claim in slot `k` is an eligible candidate on zone `z` (R100). -/
def candidate (s : State) (z k : Nat) : Option (Nat × Nat) :=
  match s.arbiter.claims.get k with
  | some c =>
    match c.state with
    | .onAir stamp =>
      if selects s c.selection z && eligible c.level (s.arbiter.masks.get z) then some (c.level, stamp) else none
    | _ => none
  | none => none

/-- A live candidate of level and stamp `a` wins against one of `b`: the higher level; at level 7 the higher stamp, below it
the lower stamp (R100). -/
def beats (a b : Nat × Nat) : Bool :=
  decide (b.1 < a.1) || (decide (a.1 = b.1) && (if a.1 = 7 then decide (b.2 < a.2) else decide (a.2 < b.2)))

/-- The winning live claim among the slots listed: its slot, level and stamp (R100). -/
def bestLive (s : State) (z : Nat) : List Nat → Option (Nat × Nat × Nat)
  | [] => none
  | k :: rest =>
    match candidate s z k, bestLive s z rest with
    | none, b => b
    | some a, none => some (k, a)
    | some a, some b => if beats a b.2 then some (k, a) else some b

/-- The level of the zone's plan claim where it has one that is eligible (R100). -/
def planCandidate (s : State) (z : Nat) : Option Nat :=
  match s.arbiter.planClaims.get z with
  | some kind => if eligible (planLevel kind) (s.arbiter.masks.get z) then some (planLevel kind) else none
  | none => none

/-- The winner on a zone and its level, 0 for NONE (R100, steps 1 to 3). -/
def winner (s : State) (z : Nat) : Holder × Nat :=
  match planCandidate s z, bestLive s z (List.range 16) with
  | none, none => (.none, 0)
  | some p, none => (.plan, p)
  | none, some (k, l, _) => (.slot k, l)
  | some p, some (k, l, _) => if p < l then (.slot k, l) else (.plan, p)

/-- The claim in slot `k`, where there is one, changed by `f`. -/
def Arbiter.onClaim (k : Nat) (f : Claim → Claim) (a : Arbiter) : Arbiter :=
  { a with claims := a.claims.set k ((a.claims.get k).map f) }

/-- The zones-held count of the slot of a holder changed (R95, R101). -/
def Arbiter.held (f : Nat → Nat) (h : Holder) (a : Arbiter) : Arbiter :=
  match h with
  | .slot k => a.onClaim k fun c => { c with zonesHeld := f c.zonesHeld }
  | _ => a

/-- The channel the claim in a slot holds. -/
def Arbiter.channelOf (a : Arbiter) (k : Nat) : Nat :=
  match a.claims.get k with
  | some c => c.channel
  | none => 0

/-- The holder record the Crosspoint is told of (R101, R118). -/
def recordOf (s : State) (z : Nat) : Holder → HolderRecord
  | .none => .none
  | .plan => .plan ((s.arbiter.planClaims.get z).getD .alert)
  | .slot k => .slot k (s.arbiter.channelOf k)

def writeRecord (z : Nat) (h : Holder) (s : State) : State :=
  s.onCrosspoint fun c => { c with records := c.records.set z (recordOf s z h) }

/-- The outcome `h` of a holder choice on `z`, of the given level: where the holder changes, the counts follow and the
Crosspoint and the Sequencer are told; where it stays PLAN, the Crosspoint is told the kind (R101). -/
def giveHolder (z : Nat) (h : Holder) (level : Nat) (s : State) : State :=
  if s.arbiter.holders.get z = h then
    if h = .plan then writeRecord z h s else s
  else
    (writeRecord z h
      (s.onArbiter fun a =>
        let b := (a.held (· - 1) (a.holders.get z)).held (· + 1) h
        { b with holders := b.holders.set z h })).send (.report z level)

/-- Some ON-AIR claim selects zones by group. -/
def State.groupsOnAir (s : State) : Bool :=
  s.arbiter.claims.items.any fun c =>
    match c with
    | some { selection := .groups _, state := .onAir _, .. } => true
    | _ => false

/-- The holder choice on `z` once the groups it needs have been read (R100). -/
def decideHolder (z : Nat) (s : State) : State :=
  match winner s z with
  | (h, l) =>
    if s.arbiter.reserved = some z then
      if 3 ≤ l then
        (giveHolder z h l (s.onArbiter fun a => { a with reserved := none })).send (.abort z)
      else giveHolder z .none 0 s
    else giveHolder z h l s

/-- The holder choice on zone `z` (R100). Where an ON-AIR claim selects by group, the zone's record is used; a record marked
by that use is taken with mask 0 and no group (R87). -/
def chooseHolder (z : Nat) (s : State) : State :=
  decideHolder z (if s.groupsOnAir then (touchZone z s).1 else s)

/-- The holder choices of several zones, in the order given (R99). -/
def chooseHolders (zs : List Nat) (s : State) : State := zs.foldl (fun t z => chooseHolder z t) s

/-- The level of a zone's holder: 0 for NONE (R101). -/
def holderLevel (s : State) (z : Nat) : Nat :=
  match s.arbiter.holders.get z with
  | .none => 0
  | .plan => match s.arbiter.planClaims.get z with
    | some kind => planLevel kind
    | none => 0
  | .slot k => match s.arbiter.claims.get k with
    | some c => c.level
    | none => 0

/-! ### Stamps (R84) -/

/-- The arrival stamps held by claims in the table. -/
def Arbiter.arrivals (a : Arbiter) : List Nat := a.claims.items.filterMap fun c => c.map (·.arrival)

/-- The on-air stamps held by claims in the table. -/
def Arbiter.onAirStamps (a : Arbiter) : List Nat :=
  a.claims.items.filterMap fun c =>
    match c with
    | some { state := .onAir n, .. } => some n
    | _ => none

/-- The place of a stamp among the stamps, from 1. -/
def rankOf (n : Nat) (stamps : List Nat) : Nat := (stamps.filter fun m => decide (m ≤ n)).length

/-- The arrival stamps renumbered 1, 2 and so on in their order (R84). -/
def Arbiter.renumberArrivals (a : Arbiter) : Arbiter :=
  { a with
    claims := a.claims.mapIdx fun _ c => c.map fun c => { c with arrival := rankOf c.arrival a.arrivals }
    arrivalCounter := a.arrivals.length }

/-- The on-air stamps renumbered 1, 2 and so on in their order (R84). -/
def Arbiter.renumberOnAir (a : Arbiter) : Arbiter :=
  { a with
    claims := a.claims.mapIdx fun _ c => c.map fun c =>
      match c.state with
      | .onAir n => { c with state := .onAir (rankOf n a.onAirStamps) }
      | _ => c
    onAirCounter := a.onAirStamps.length }

/-- The counter raised so that its new value is the next arrival stamp (R84). -/
def Arbiter.nextArrival (a : Arbiter) : Arbiter :=
  let b := if a.arrivalCounter = 65535 then a.renumberArrivals else a
  { b with arrivalCounter := b.arrivalCounter + 1 }

/-- The counter raised so that its new value is the next on-air stamp (R84). -/
def Arbiter.nextOnAir (a : Arbiter) : Arbiter :=
  let b := if a.onAirCounter = 65535 then a.renumberOnAir else a
  { b with onAirCounter := b.onAirCounter + 1 }

/-! ### The confirm exchange (R88, R89) -/

/-- The claim in slot `k` enters CONFIRMING with a new confirm number, a CONFIRM REQUEST and the confirm timeout, 16 frames
for each millisecond (R89). -/
def enterConfirming (k : Nat) (s : State) : State :=
  match s.arbiter.claims.get k with
  | none => s
  | some c =>
    match readTiming Header.confirmTimeout s with
    | (t, ms) =>
      let number := (t.arbiter.confirmCounter + 1) % 256
      queueConfirm { station := c.station, slot := k, level := c.level, channel := c.channel, number := number }
        (t.onArbiter fun a =>
          { a.onClaim k (fun c => { c with state := .confirming number (16 * ms) }) with confirmCounter := number })

/-- The claim in slot `k`, when PENDING, passes the would-win test: on some zone of its selection it is eligible and above the
level of every eligible candidate (R88). -/
def wouldWin (s : State) (k : Nat) : Bool :=
  match s.arbiter.claims.get k with
  | some c =>
    decide (c.state = .pending) &&
      (List.range 128).any fun z =>
        selects s c.selection z && eligible c.level (s.arbiter.masks.get z) && decide ((winner s z).2 < c.level)
  | none => false

/-- A slot put into a list of slots in ascending order of arrival stamp. -/
def insertByArrival (a : Arbiter) (k : Nat) : List Nat → List Nat
  | [] => [k]
  | j :: rest =>
    let stamp := fun i => match a.claims.get i with | some c => c.arrival | none => 0
    if stamp k ≤ stamp j then k :: j :: rest else j :: insertByArrival a k rest

/-- The slots of the PENDING claims, in ascending order of arrival stamp (R88). -/
def pendingSlots (s : State) : List Nat :=
  (indices 16 fun k =>
    match s.arbiter.claims.get k with
    | some c => decide (c.state = .pending)
    | none => false).foldr (insertByArrival s.arbiter) []

/-- The zones whose groups a would-win test of these slots reads: every zone for a claim that selects by group, and where an
ON-AIR claim selects by group every zone of the tested claims (R87, R88, log 14). -/
def testReads (s : State) (ks : List Nat) : List Nat :=
  indices 128 fun z => ks.any fun k =>
    match s.arbiter.claims.get k with
    | some c => c.selection.isGroups || (s.groupsOnAir && selects s c.selection z)
    | none => false

/-- Each of these claims that passes the test against the present candidates enters CONFIRMING (R88). -/
def confirmWinners (ks : List Nat) (s : State) : State :=
  ks.foldl (fun t k => if wouldWin s k then enterConfirming k t else t) s

/-- The would-win test of these slots, made at once (R86, R88). Where its readings mark a record, that zone's holder choice is
made (R7), and every PENDING claim is tested at the end (R88). -/
def wouldWinTest (ks : List Nat) (s : State) : State :=
  match touchZones (testReads s ks) s with
  | (t, []) => confirmWinners ks t
  | (t, fresh) =>
    let u := confirmWinners ks (chooseHolders fresh t)
    match touchZones (testReads u (pendingSlots u)) u with
    | (v, again) =>
      let w := chooseHolders again v
      confirmWinners (pendingSlots w) w

/-- The test of every PENDING claim at the end of an event with a holder choice (R88). -/
def testPending (s : State) : State := wouldWinTest (pendingSlots s) s

/-- The holder choices of an event, in ascending zone order, and the test that follows; nothing when there is no zone
(R88, R99). -/
def choiceEvent (zs : List Nat) (s : State) : State := if zs = [] then s else testPending (chooseHolders zs s)

/-- A use of zone `z`'s record by a block other than the arbiter, with all the effects of its marking (R6, R7): the state, and
whether the record is handed over. -/
def useZone (z : Nat) (s : State) : State × Bool :=
  match touchZone z s with
  | (t, true) => (t, true)
  | (t, false) => if s.marked (zoneRef z) then (t, false) else (choiceEvent [z] t, false)

/-- A use, or a check of an entry with the effects of a use, of any entry (R6, R7). -/
def useAny (r : EntryRef) (s : State) : State × Bool :=
  if r.table = .zoneRecord then useZone r.index s else useEntry r s

/-! ### Going on air and ending (R86, R91, R95 to R98) -/

/-- The claim in slot `k` takes an on-air stamp and enters ON-AIR (R84, R91). -/
def putOnAir (k : Nat) (s : State) : State :=
  s.onArbiter fun a =>
    a.nextOnAir.onClaim k fun c => { c with state := .onAir a.nextOnAir.onAirCounter }

/-- The holder choice of each zone of the selection of a claim that has gone on air (R91, R99). A group set reads every record;
the zones newly marked are chosen too (R87). -/
def onAirChoices (sel : Selection) (s : State) : State :=
  match touchZones (if sel.isGroups then List.range 128 else []) s with
  | (t, fresh) => choiceEvent (indices 128 fun z => selects t sel z || fresh.contains z) t

/-- The claim in slot `k` goes on air (R91). -/
def enterOnAir (k : Nat) (s : State) : State :=
  match s.arbiter.claims.get k with
  | none => s
  | some c => onAirChoices c.selection (putOnAir k s)

/-- The slot holds an ON-AIR claim. -/
def State.slotOnAir (s : State) (k : Nat) : Bool :=
  match s.arbiter.claims.get k with
  | some { state := .onAir _, .. } => true
  | _ => false

/-- These slots are freed, the zones they held are chosen again, and where one of them was ON-AIR the PENDING claims are
tested (R96, R97, log 15). -/
def freeSlots (ks : List Nat) (s : State) : State :=
  let zs := indices 128 fun z => ks.any fun k => decide (s.arbiter.holders.get z = .slot k)
  let t := chooseHolders zs (s.onArbiter fun a => { a with claims := ks.foldl (fun c k => c.set k none) a.claims })
  if ks.any s.slotOnAir then testPending t else t

/-- The claims in these slots are dropped for a reason: each queues CLAIM_DROPPED, then the slots are freed (R97). -/
def dropClaims (reason : DropReason) (ks : List Nat) (s : State) : State :=
  freeSlots ks
    (ks.foldl (fun t k =>
      match s.arbiter.claims.get k with
      | some c => notify (.claimDropped k c.station reason) t
      | none => t) s)

/-- The slots that hold a claim meeting `p`, in ascending order. -/
def slotsWhere (s : State) (p : Claim → Bool) : List Nat :=
  indices 16 fun k =>
    match s.arbiter.claims.get k with
    | some c => p c
    | none => false

/-- The Crosspoint reports that a channel has gone from PRESENT to LOST (R98). -/
def channelLost (channel : Nat) (s : State) : State :=
  dropClaims .sourceLost (slotsWhere s fun c => decide (c.channel = channel)) s

/-- Every claim is dropped (R98). -/
def dropAll (reason : DropReason) (s : State) : State := dropClaims reason (slotsWhere s fun _ => true) s

/-! ### Answers (R90 to R93) -/

/-- The claim in CONFIRMING that an answer is taken for: the slot's, when the source station is the claim's and the tag its
confirm number (R90). -/
def answeredClaim (s : State) (station slot number : Nat) : Option Claim :=
  match s.arbiter.claims.get slot with
  | some c =>
    match c.state with
    | .confirming n _ => if c.station = station ∧ n = number then some c else none
    | _ => none
  | none => none

/-- A WAIT answer for the claim `c` in slot `k` (R93). -/
def takeWait (k : Nat) (c : Claim) (s : State) : State :=
  if 4 ≤ c.waitCount + 1 then dropClaims .retryLimit [k] s
  else
    match readTiming Header.retryInterval s with
    | (t, ms) =>
      t.onArbiter (Arbiter.onClaim k fun c =>
        { c with waitCount := c.waitCount + 1, state := .waiting (16 * ms) })

/-- A READY answer for the claim `c` in slot `k` (R91). -/
def takeReady (k : Nat) (c : Claim) (s : State) : State :=
  if s.crosspoint.presence.get c.channel = .present then enterOnAir k s else takeWait k c s

/-- The index of a level in the Default Channel Table (R15). -/
def defaultIndex (level : Nat) : Nat := if level = 1 then 0 else if level = 2 then 1 else 2

/-- A claim in another slot than `k` holds the channel (R92). -/
def channelHeldBeside (s : State) (k channel : Nat) : Bool :=
  (List.range 16).any fun j =>
    decide (j ≠ k) && match s.arbiter.claims.get j with
      | some c => decide (c.channel = channel)
      | none => false

/-- A DEFAULT answer for the claim `c` in slot `k` (R92). -/
def takeDefault (k : Nat) (c : Claim) (s : State) : State :=
  match useEntry (defaultRef (defaultIndex c.level)) s with
  | (t, false) => dropClaims .table [k] t
  | (t, true) =>
    let channel := s.tables.fields.defaults.get (defaultIndex c.level)
    if channelHeldBeside t k channel then dropClaims .channelBusy [k] t
    else enterOnAir k (t.onArbiter (Arbiter.onClaim k fun c => { c with channel := channel }))

/-! ### Frame-counted timers (R89, R93) -/

/-- A claim's timer lowered by one frame. -/
def ClaimState.lower : ClaimState → ClaimState
  | .confirming n t => .confirming n (t - 1)
  | .waiting t => .waiting (t - 1)
  | other => other

def ClaimState.timedOut : ClaimState → Bool
  | .confirming _ 0 => true
  | _ => false

def ClaimState.retryDue : ClaimState → Bool
  | .waiting 0 => true
  | _ => false

/-- One frame of the claims' timers: each is lowered, the claims whose confirm timeout has run out are dropped as one event,
and then each whose retry interval has ended enters CONFIRMING, in ascending slot order (R89, R93, R97, log 27). -/
def claimTimers (s : State) : State :=
  let t := s.onArbiter fun a =>
    { a with claims := a.claims.mapIdx fun _ c => c.map fun c => { c with state := c.state.lower } }
  let u := dropClaims .noAnswer (slotsWhere t fun c => c.state.timedOut) t
  (slotsWhere u fun c => c.state.retryDue).foldl (fun v k => enterConfirming k v) u

/-! ### Plan claims and base values (R73, R80, R99, R121) -/

/-- The arbiter takes the changed plan claims of one hand-over and makes the zones' holder choices, in ascending zone
order (R73, R99). -/
def takePlanClaims (changes : List (Nat × Option PlanKind)) (s : State) : State :=
  choiceEvent (indices 128 fun z => changes.any fun c => decide (c.1 = z))
    (s.onArbiter fun a =>
      { a with planClaims := changes.foldl (fun p c => p.set c.1 c.2) a.planClaims })

/-- Holder choices with the ZONE_DISABLED checks against the masks before the change, in the order given (R80, R81). -/
def chooseAndCheck (old : Tab Nat 128) (zs : List Nat) (s : State) : State :=
  zs.foldl (fun t z => zoneDisabledCheck (old.get z) z (chooseHolder z t)) s

/-- The base values of a field of the Zone Records, 0 where the record is marked (R80, R121). -/
def baseValues (f : ZoneRecord → Nat) (s : State) : Tab Nat 128 :=
  s.tables.fields.zones.mapIdx fun z e => if s.marked (zoneRef z) then 0 else f e

/-- Every runtime mask and trim set to its base value (R80, R121). -/
def setBaseValues (s : State) : State :=
  (s.onArbiter fun a => { a with masks := baseValues ZoneRecord.baseMask s }).onCrosspoint fun c =>
    { c with trims := baseValues ZoneRecord.baseTrim s }

/-- Every runtime mask and trim takes its base value; the masks are all set first, then every zone's choice and check are made
in ascending order (R3, R8, R80, R121). -/
def takeBaseValues (s : State) : State :=
  testPending
    (chooseAndCheck s.arbiter.masks (List.range 128) (setBaseValues (touchZones (List.range 128) s).1))

/-! ### The supervision reservation (R102) -/

/-- The reservation of `z`, where it is the one held, ends by release, and the zone's holder choice is made (R102). -/
def releaseReservation (z : Nat) (s : State) : State :=
  if s.arbiter.reserved = some z then choiceEvent [z] (s.onArbiter fun a => { a with reserved := none }) else s

/-- A reservation held on another zone is ended first (R102). -/
def endOtherReservation (z : Nat) (s : State) : State :=
  match s.arbiter.reserved with
  | some y => if y = z then s else releaseReservation y s
  | none => s

/-- Zone `z` reserved, and its holder choice made (R99, R102). -/
def reserve (z : Nat) (s : State) : State :=
  choiceEvent [z] (s.onArbiter fun a => { a with reserved := some z })

/-- A request for a reservation of `z`: the state, and the level of the zone's holder answered. The zone is reserved where the
holder is NONE (R102); the grant is an input of the zone's choice (R99). -/
def requestReservation (z : Nat) (s : State) : State × Nat :=
  if (endOtherReservation z s).arbiter.holders.get z = .none then (reserve z (endOtherReservation z s), 0)
  else (endOtherReservation z s, holderLevel (endOtherReservation z s) z)

end Sys2Proof.Machine
end

