-- ==== Sys2Proof/Machine/EditStore.lean ====
section
/-! DEFINITION. The edit transaction of the Table Store (file 01 sections 1.1 and 1.9, file 08 section 8.5) as the other
blocks reach it: how an edit ends, the lease, the validation and the install. -/

namespace Sys2Proof.Machine

def State.setEdit (e : Option Edit) (s : State) : State := s.onTables fun t => { t with edit := e }

/-- The edit is VALIDATING, whether its validation is running or has passed (R164, R166). -/
def EditPhase.isValidating : EditPhase → Bool
  | .opened => false
  | .validating _ => true
  | .passed => true

/-- A commit that was VALIDATING when its edit ended is answered NO_EDIT (R165 to R167). -/
def answerEnded (e : Edit) (s : State) : State := if e.phase.isValidating then answerCommit .noEdit [] s else s

/-- A break notice (R166). -/
def breakEdit (s : State) : State :=
  match s.tables.edit with
  | none => s
  | some e => answerEnded e (notify (.editEnded .broken) (s.setEdit none))

/-- The edit is closed because its lease has run out, EDIT_ENDED(EXPIRED) being queued (R163). -/
def expireEdit (s : State) : State := notify (.editEnded .expired) (s.setEdit none)

/-- The lease has run out in OPEN (R163). -/
def leaseRunOut (e : Edit) : Bool := decide (e.lease = 0) && decide (e.phase = .opened)

/-- One incident tick of the lease (R163). -/
def leaseTick (s : State) : State :=
  match s.tables.edit with
  | none => s
  | some e =>
    if leaseRunOut { e with lease := e.lease - 1 } then expireEdit s
    else s.setEdit (some { e with lease := e.lease - 1 })

/-- The data of a VALIDATION answer: table, index and reason (file 10, section 10.2). -/
def failureData (f : Failure) : List Byte :=
  [byte (tableNumber f.entry.table)] ++ bytes2 f.entry.index ++ [byte (reasonCode f.reason)]

/-- The validation of the edit `e` ends: back to OPEN with a VALIDATION answer, or on to the install (R164). -/
def endValidation (e : Edit) (s : State) : State :=
  match validate e.staging with
  | some f => answerCommit .validation (failureData f) (s.setEdit (some { e with phase := .opened }))
  | none => s.setEdit (some { e with phase := .passed })

/-- One frame event of the validation (R164). -/
def validationFrame (s : State) : State :=
  match s.tables.edit with
  | none => s
  | some e =>
    match e.phase with
    | .validating n =>
      if n ≤ 1 then endValidation e s else s.setEdit (some { e with phase := .validating (n - 1) })
    | _ => s

/-- The install of the staging image: fresh check codes and clear marks, TABLE_CORRUPT removed, base masks and trims, the
edit closed and the commit answered OK (R3). -/
def installImage (e : Edit) (s : State) : State :=
  let t := s.onTables fun _ => .fresh e.staging
  let u := t.onFaultUnit (FaultUnit.removeTableCorrupt t.timer.seconds)
  answerCommit .ok [] (takeBaseValues u)

/-- The install waiting for the next Z-frame, if one is (R3, R164). -/
def installIfPassed (s : State) : State :=
  match s.tables.edit with
  | some e => if e.phase = .passed then installImage e s else s
  | none => s

/-! ### The staging copy (R2) -/

/-- The staging image: the entries as stored, but the power-on contents of every entry that is marked or fails its check. -/
def stagingCopy (s : State) : Image :=
  (s.tables.marks ++ failing s).foldl (fun im r => im.setEntry r.index (Entry.powerOn r.table)) s.tables.fields

/-- The marks the copy sets, with the effects of R6 and R7 (R2), in ascending order of table number and then of index: the
model's choice (log 17). -/
def markFailing (s : State) : State :=
  ((failing s).filter fun r => !s.marked r).foldl (fun t r => (useAny r t).1) s

end Sys2Proof.Machine
end

