-- ==== Sys2Proof/Machine/Engine.lean ====
section
/-! DEFINITION. The Incident Engine (files 02 to 04): demand, GENERAL, step application, due checks, the incident tick,
detection events and the officer controls. -/

namespace Sys2Proof.Machine

/-! ### Demand and plan claims (R72 to R77) -/

def Demand.rank : Demand → Nat
  | .none => 0
  | .alert => 1
  | .evacuate => 2

/-- The higher of two demands (R31, R72). -/
def Demand.max (a b : Demand) : Demand := if a.rank < b.rank then b else a

def StepKind.demand : StepKind → Demand
  | .alert => .alert
  | .evacuate => .evacuate

/-- The demand of a zone formed from GENERAL and the incidents (R72). -/
def Engine.formed (e : Engine) (z : Nat) : Demand :=
  if e.general.isSome then .evacuate
  else e.incidents.foldr (fun i d => (i.demand.get z).max d) .none

/-- The plan claim of a zone from its demand and all-clear timer (R77). -/
def planClaimOf (d : Demand) (timer : Nat) : Option PlanKind :=
  match d with
  | .evacuate => some .evacuate
  | .alert => some .alert
  | .none => if timer = 0 then none else some .allClear

def Engine.planClaim (e : Engine) (z : Nat) : Option PlanKind := planClaimOf (e.demand.get z) (e.allClear.get z)

/-- The timer of a zone whose demand goes from `old` to `new`: cancelled by a rise (R76), loaded with `start` where the demand
falls to NONE by a reset (R74), else as it stands. -/
def timerAfter (start : Option Nat) (old new : Demand) (timer : Nat) : Nat :=
  if old.rank < new.rank then 0
  else if old ≠ .none ∧ new = .none then start.getD timer
  else timer

/-- The demand of each zone meeting `p` formed again, with the effect on its timer (R72, R74, R76). -/
def Engine.recompute (p : Nat → Bool) (start : Option Nat) (e : Engine) : Engine :=
  { e with
    demand := e.demand.mapIdx fun z d => if p z then e.formed z else d
    allClear := e.allClear.mapIdx fun z t =>
      if p z then timerAfter start (e.demand.get z) (e.formed z) t else t }

/-- The zones meeting `p` formed again, no all-clear timer being started. -/
def recomputeZones (p : Nat → Bool) (s : State) : State := s.onEngine (Engine.recompute p none)

/-- Some zone meeting `p` would fall to NONE. -/
def Engine.falls (p : Nat → Bool) (e : Engine) : Bool :=
  (List.range 128).any fun z => p z && decide (e.demand.get z ≠ .none) && decide (e.formed z = .none)

/-- The zones meeting `p` formed again after a reset: where a demand falls to NONE, the timer takes the all-clear period, read
at that moment (R67, R69, R74, log 29). -/
def recomputeAfterReset (p : Nat → Bool) (s : State) : State :=
  if s.engine.falls p then
    match readTiming Header.allClearPeriod s with
    | (t, period) => t.onEngine (Engine.recompute p (some period))
  else s.onEngine (Engine.recompute p none)

/-- The zones whose plan claim differs between two moments of the engine, each with its claim at the later one. -/
def planChanges (before after : Engine) : List (Nat × Option PlanKind) :=
  (indices 128 fun z => decide (before.planClaim z ≠ after.planClaim z)).map fun z => (z, after.planClaim z)

/-- An event of the engine: at its end, the changed plan claims are handed to the Zone Arbiter (R73). -/
def engineEvent (f : State → State) (s : State) : State :=
  let t := f s
  match planChanges s.engine t.engine with
  | [] => t
  | changes => takePlanClaims changes t

/-! ### GENERAL (R70, R71) -/

/-- A request to set GENERAL (R44, R70); the hand-over follows at the end of the event. -/
def askGeneral (cause : GeneralCause) (s : State) : State :=
  if s.engine.general.isSome then s
  else
    recomputeZones (fun _ => true)
      (breakEdit (notify (.general true cause) (s.onEngine fun e => { e with general := some cause })))

/-! ### Incidents by position (R39) -/

def State.incident (s : State) (p : Nat) : Option Incident := s.engine.incidents[p]?

/-- The list with position `p` changed by `f`. -/
def modifyAt {α : Type} (f : α → α) : Nat → List α → List α
  | _, [] => []
  | 0, a :: rest => f a :: rest
  | p + 1, a :: rest => a :: modifyAt f p rest

def onIncident (p : Nat) (f : Incident → Incident) (s : State) : State :=
  s.onEngine fun e => { e with incidents := modifyAt f p e.incidents }

def removeIncident (p : Nat) (s : State) : State :=
  s.onEngine fun e => { e with incidents := e.incidents.eraseIdx p }

/-- The position of the first incident meeting `f`. -/
def findIncident (f : Incident → Bool) : List Incident → Option Nat
  | [] => none
  | i :: rest => if f i then some 0 else (findIncident f rest).map (· + 1)

/-! ### Plan faults and step application (R24 to R32) -/

/-- A plan fault of the incident at position `p` (R24, R26, R60). -/
def planFault (p : Nat) (s : State) : State :=
  onIncident p (fun i => { i with planFault := true, nextStep := none }) (askGeneral .planFault s)

/-- The range a step applies to: its low and high storey or nothing, the clipped count and the unplaced count. -/
structure StepRange where
  range : Option (Nat × Nat)
  clipped : Nat
  unplaced : Nat
  deriving DecidableEq, Repr

/-- The range of an ALL step in a building of `count` storeys (R27). -/
def allRange (count : Nat) : StepRange :=
  { range := if count = 0 then none else some (0, count - 1), clipped := 0, unplaced := 0 }

/-- The range of a RELATIVE step (R28 to R30): `origin`, `offset` and `length` place the raw range. -/
def relativeRange (count origin length : Nat) (offset : Int) (carry : Bool) : StepRange :=
  let rawLow : Int := origin + offset
  let rawHigh : Int := rawLow + length - 1
  let low := max rawLow 0
  let high := min rawHigh (count - 1)
  if high < low then { range := none, clipped := length, unplaced := length }
  else
    let topClip := max (rawHigh - (count - 1)) 0
    let bottomClip := max (-rawLow) 0
    if carry then
      let low2 := low - topClip
      let high2 := high + bottomClip
      { range := some ((max low2 0).toNat, (min high2 (count - 1)).toNat)
        clipped := (topClip + bottomClip).toNat
        unplaced := (max (-low2) 0 + max (high2 - (count - 1)) 0).toNat }
    else
      { range := some (low.toNat, high.toNat)
        clipped := (topClip + bottomClip).toNat
        unplaced := (topClip + bottomClip).toNat }

/-- The range of a step for an incident of this origin (R25, stage 3). -/
def stepRange (count origin : Nat) (e : StepRecord) : StepRange :=
  match e.scope with
  | .all => allRange count
  | .relative => relativeRange count origin e.length e.offset e.carry

/-- The storeys of a range, in ascending order. -/
def StepRange.storeys (r : StepRange) : List Nat :=
  match r.range with
  | none => []
  | some (low, high) => (List.range (high + 1 - low)).map (low + ·)

/-- The demand vector with the zones listed raised to at least `d` (R31). -/
def raiseVector (d : Demand) (zs : List Nat) (v : Tab Demand 128) : Tab Demand 128 :=
  v.mapIdx fun z old => if z ∈ zs then old.max d else old

/-- The zones among `zs` on which the incident at `p` holds less than `d`. -/
def raisedZones (s : State) (p : Nat) (d : Demand) (zs : List Nat) : List Nat :=
  match s.incident p with
  | some i => zs.filter fun z => decide ((i.demand.get z).rank < d.rank)
  | none => []

/-- The incident at `p` is raised to `d` on the zones listed, and the demand of the zones it raised is formed again (R31). -/
def raiseZones (p : Nat) (d : Demand) (zs : List Nat) (s : State) : State :=
  let raised := raisedZones s p d zs
  recomputeZones (fun z => raised.contains z) (onIncident p (fun i => { i with demand := raiseVector d zs i.demand }) s)

/-- The zones of the storeys listed, up to the first storey whose entry is marked, and whether all could be read (R25, stage 4,
R26). -/
def readStoreys : List Nat → State → State × List Nat × Bool
  | [], s => (s, [], true)
  | k :: rest, s =>
    match readSpan k s with
    | (t, none) => (t, [], false)
    | (t, some zs) =>
      match readStoreys rest t with
      | (u, more, ok) => (u, zs ++ more, ok)

/-- Step `k` applied to the incident at position `p` (R25): the state, and whether it was applied whole. -/
def applyStep (p k : Nat) (s : State) : State × Bool :=
  match s.incident p with
  | none => (s, false)
  | some i =>
    match useEntry (stepRef k) s with
    | (t, false) => (planFault p t, false)
    | (t, true) =>
      let e := s.tables.fields.steps.get k
      match readStoreyCount t with
      | (u, none) => (planFault p u, false)
      | (u, some count) =>
        let r := stepRange count i.origin e
        match readStoreys r.storeys u with
        | (v, zs, false) => (planFault p (raiseZones p e.kind.demand zs v), false)
        | (v, zs, true) =>
          (onIncident p (fun i =>
            { i with
              lastStep := some { step := k, range := r.range, clipped := r.clipped, unplaced := r.unplaced }
              nextStep := e.next }) (raiseZones p e.kind.demand zs v), true)

/-! ### Due checks and plan entry (R19, R23, R59) -/

/-- A due check of the incident at position `p`, over at most `fuel` steps (R59, log 16). -/
def dueCheck (p : Nat) : Nat → State → State
  | 0, s => s
  | fuel + 1, s =>
    match s.incident p with
    | none => s
    | some i =>
      match i.nextStep with
      | none => s
      | some k =>
        match useEntry (stepRef k) s with
        | (t, false) => planFault p t
        | (t, true) =>
          if i.elapsed < (s.tables.fields.steps.get k).delay then t else dueCheck p fuel (applyStep p k t).1

/-- The number of steps in the Step Pool, which bounds the steps of one due check. -/
def dueFuel : Nat := 256

/-- The incident at position `p` enters its plan at elapsed 0 (R19, R23). -/
def enterPlan (p : Nat) (s : State) : State :=
  match s.incident p with
  | none => s
  | some i =>
    match useEntry (planRef i.plan) s with
    | (t, false) => planFault p t
    | (t, true) =>
      dueCheck p dueFuel (onIncident p (fun i => { i with nextStep := s.tables.fields.plans.get i.plan }) t)

/-! ### The incident tick (R51, R52, R57, R58, R75) -/

/-- The removal of the incident at position `p` on expiry of its window: its pre-alert zones are formed again and no all-clear
timer starts (R52). -/
def expireIncident (p : Nat) (s : State) : State :=
  match s.incident p with
  | none => s
  | some i =>
    recomputeZones (fun z => decide (i.demand.get z ≠ .none)) (notify (.incident i.id .removed) (removeIncident p s))

/-- Stage 2 of the tick over `n` incidents from position `p` on, oldest first (R57). -/
def tickIncidents : Nat → Nat → State → State
  | 0, _, s => s
  | n + 1, p, s =>
    match s.incident p with
    | none => s
    | some i =>
      match i.state with
      | .confirming d =>
        if d ≤ 1 then tickIncidents n p (expireIncident p s)
        else tickIncidents n (p + 1) (onIncident p (fun i => { i with state := .confirming (d - 1) }) s)
      | .active =>
        tickIncidents n (p + 1)
          (dueCheck p dueFuel (onIncident p (fun i => { i with elapsed := min (i.elapsed + 1) 65535 }) s))
      | .held => tickIncidents n (p + 1) s

/-- Stage 1 of the tick: every running all-clear timer is lowered by 1 (R57, R75). -/
def lowerAllClear (s : State) : State :=
  s.onEngine fun e => { e with allClear := e.allClear.mapIdx fun _ t => t - 1 }

/-- The incident tick as the Incident Engine takes it (R57). -/
def engineTick (s : State) : State :=
  engineEvent (fun t => tickIncidents t.engine.incidents.length 0 (lowerAllClear t)) s

/-! ### Detection events (R37, R38, R41 to R50) -/

/-- The id after `n`, wrapping from 255 to 1 (R41). -/
def nextId (n : Nat) : Nat := if 255 ≤ n then 1 else n + 1

/-- The first id from `n` on that no listed incident holds, over at most `fuel` moves (R41). -/
def freeId (incidents : List Incident) : Nat → Nat → Nat
  | 0, n => n
  | fuel + 1, n => if incidents.any fun i => decide (i.id = n) then freeId incidents fuel (nextId n) else n

/-- A new record for detection zone `d` (R45). -/
def newIncident (id d : Nat) (e : DetectionEntry) (window : Nat) : Incident where
  id := id
  state := if e.confirmRequired then .confirming window else .active
  origin := e.storey
  plan := e.plan
  dzList := [(d, .inAlarm)]
  further := 0
  elapsed := 0
  nextStep := none
  lastStep := none
  planFault := false
  demand := .const .none

/-- Pre-alert on the incident at position `p` of origin storey `storey` (R46). A header found CORRUPT ends the reading, and the
storey's entry is then not used: the model's choice (log 32). -/
def placePreAlert (p storey : Nat) (s : State) : State :=
  match readStoreyCount s with
  | (t, none) => askGeneral .planFault t
  | (t, some _) =>
    match readSpan storey t with
    | (u, none) => askGeneral .planFault u
    | (u, some zs) => raiseZones p .alert zs u

/-- The confirm window, read where the incident is created CONFIRMING (R9, R45). -/
def readWindow (confirmRequired : Bool) (s : State) : State × Nat :=
  if confirmRequired then readTiming Header.confirmWindow s else (s, 0)

/-- The record appended with the next free id, which the counter moves past (R39, R41, R45). -/
def appendIncident (d : Nat) (e : DetectionEntry) (window : Nat) (s : State) : State :=
  s.onEngine fun g =>
    let id := freeId g.incidents 9 g.idCounter
    { g with incidents := g.incidents ++ [newIncident id d e window], idCounter := nextId id }

/-- A FIRE on `d` creates an incident (R45). -/
def createIncident (d : Nat) (e : DetectionEntry) (s : State) : State :=
  match readWindow e.confirmRequired s with
  | (t, window) =>
    let id := freeId t.engine.incidents 9 t.engine.idCounter
    let p := t.engine.incidents.length
    let u := notify (.incident id (if e.confirmRequired then .confirming else .active))
      (breakEdit (appendIncident d e window t))
    if e.confirmRequired then if e.preAlert then placePreAlert p e.storey u else u
    else enterPlan p u

/-- The DZ list and further-reports count after a FIRE on `d` that joins (R48). -/
def joinDz (d : Nat) (i : Incident) : Incident :=
  if i.dzList.any fun e => decide (e.1 = d) then
    { i with dzList := i.dzList.map fun e => if e.1 = d then (d, .inAlarm) else e }
  else if i.dzList.length < 4 then { i with dzList := i.dzList ++ [(d, .inAlarm)] }
  else { i with further := min (i.further + 1) 255 }

/-- The state is CONFIRMING. -/
def IncidentState.isConfirming : IncidentState → Bool
  | .confirming _ => true
  | _ => false

/-- A FIRE on `d` joins the incident at position `p`, confirming it where it is CONFIRMING (R48, R49). -/
def joinIncident (p d : Nat) (s : State) : State :=
  match s.incident p with
  | none => s
  | some i =>
    let t := onIncident p (joinDz d) s
    if i.state.isConfirming then
      enterPlan p
        (notify (.incident i.id .active) (onIncident p (fun i => { i with state := .active, elapsed := 0 }) t))
    else t

/-- A FIRE report on detection zone `d`, before the hand-over (R42, R43, R50). -/
def takeFire (d : Nat) (s : State) : State :=
  match useEntry (detectionRef d) s with
  | (t, false) => askGeneral .unmapped t
  | (t, true) =>
    let e := s.tables.fields.detections.get d
    if e.mapped = false then askGeneral .unmapped t
    else
      match findIncident (fun i => decide (i.origin = e.storey)) t.engine.incidents with
      | some p => joinIncident p d t
      | none =>
        if 8 ≤ t.engine.incidents.length then askGeneral .overflow (notify (.incidentOverflow d) t)
        else createIncident d e t

/-- A FIRE report, taken whole (R36, R54). -/
def fire (d : Nat) (s : State) : State := if 511 < d then s else engineEvent (takeFire d) s

/-- A RESTORE report on `d` (R38). -/
def restore (d : Nat) (s : State) : State :=
  match findIncident (fun i => i.dzList.any fun e => decide (e.1 = d)) s.engine.incidents with
  | some p =>
    onIncident p (fun i => { i with dzList := i.dzList.map fun e => if e.1 = d then (d, .restored) else e }) s
  | none => s

/-- A DFAULT report on `d` (R37); a detection zone above 511 is discarded (R35). -/
def dfault (d : Nat) (s : State) : State := if 511 < d then s else addFault (.detectorFault d) s

/-- A DFAULT_CLEAR report on `d` (R37). -/
def dfaultClear (d : Nat) (s : State) : State := if 511 < d then s else removeFault (.detectorFault d) s

/-! ### Officer controls (R61 to R69) -/

/-- A control that names an incident: NOT_FOUND where no incident holds the id; the response carries the id (R61, R182) and
no next step (log 35). -/
def onNamed (id : Nat) (f : Nat → Incident → State → State × Status) (s : State) : State × Reply :=
  match findIncident (fun i => decide (i.id = id)) s.engine.incidents with
  | none => (s, some (.notFound, [byte id]))
  | some p =>
    match s.incident p with
    | none => (s, some (.notFound, [byte id]))
    | some i =>
      match f p i s with
      | (t, st) => (t, some (st, [byte id]))

/-- HOLD on the incident at position `p` (R63). -/
def holdIncident (p : Nat) (i : Incident) (s : State) : State × Status :=
  if i.state = .active then
    (notify (.incident i.id .held) (onIncident p (fun i => { i with state := .held }) s), .ok)
  else (s, .badState)

/-- RESUME on the incident at position `p` (R64). -/
def resumeIncident (p : Nat) (i : Incident) (s : State) : State × Status :=
  if i.state = .held then
    (engineEvent (fun t =>
      dueCheck p dueFuel (notify (.incident i.id .active) (onIncident p (fun i => { i with state := .active }) t))) s, .ok)
  else (s, .badState)

/-- Step `k` applied to the incident at `p` by an officer: where it is applied whole, elapsed is raised to its delay (R65). -/
def advanceStep (p k : Nat) (s : State) : State :=
  match applyStep p k s with
  | (t, true) =>
    onIncident p (fun i => { i with elapsed := max i.elapsed (s.tables.fields.steps.get k).delay }) t
  | (t, false) => t

/-- ADVANCE on the incident at position `p` (R65). -/
def advanceIncident (p : Nat) (i : Incident) (s : State) : State × Status :=
  match i.nextStep with
  | none => (s, .badState)
  | some k => if i.state.isConfirming then (s, .badState) else (engineEvent (advanceStep p k) s, .ok)

/-- RESET INCIDENT on the incident at position `p` (R67). -/
def resetIncidentAt (p : Nat) (i : Incident) (s : State) : State × Status :=
  (engineEvent (fun t =>
    recomputeAfterReset (fun z => decide (i.demand.get z ≠ .none))
      (notify (.incident i.id .removed) (removeIncident p t))) s, .ok)

/-- EVACUATE ALL (R68). -/
def evacuateAll (s : State) : State := engineEvent (askGeneral .officer) s

/-- Every incident removed, oldest first, INCIDENT(id, REMOVED) being queued for each (R69, stage 1). -/
def removeAll (s : State) : State :=
  s.engine.incidents.foldl (fun t i => notify (.incident i.id .removed) t)
    (s.onEngine fun e => { e with incidents := [] })

/-- GENERAL cleared with its notification, where it is set (R69, stage 2, R71). -/
def clearGeneral (s : State) : State :=
  match s.engine.general with
  | none => s
  | some cause => notify (.general false cause) (s.onEngine fun e => { e with general := none })

/-- RESET ALL (R69). -/
def resetAll (s : State) : State :=
  engineEvent (fun t => recomputeAfterReset (fun _ => true) (clearGeneral (removeAll t))) s

/-! ### The named moments (R52, R75) -/

/-- The first CONFIRMING incident with this id whose deadline has reached 0 expires (R52, log 6). -/
def expireNamed (id : Nat) (s : State) : State :=
  match findIncident (fun i => decide (i.id = id) && decide (i.state = .confirming 0)) s.engine.incidents with
  | some p => engineEvent (expireIncident p) s
  | none => s

/-- A zone whose all-clear timer has ended, its demand being NONE, is handed over with no plan claim (R75, log 6). -/
def endAllClear (z : Nat) (s : State) : State :=
  if s.engine.planClaim z = none ∧ s.arbiter.planClaims.get z = some .allClear then takePlanClaims [(z, none)] s else s

/-- RESTART sets every all-clear timer to 0 and hands over the zones that lose a plan claim (R78). -/
def stopAllClear (s : State) : State := engineEvent (fun t => t.onEngine fun e => { e with allClear := .const 0 }) s

end Sys2Proof.Machine
end

