-- ==== Sys2Proof/Machine/Sequencer.lean ====
section
/-! DEFINITION. The Supervision Sequencer (file 07): pending requests, steps, results and scrubbing, and the taking of what
the Zone Arbiter sends it. -/

namespace Sys2Proof.Machine

/-! ### Scrubbing (R143 to R145) -/

/-- A scrub line request: each entry of line `k` is checked, in order (R144). -/
def scrubLine (k : Nat) (s : State) : State := (scrubEntries k).foldl (fun t r => (useAny r t).1) s

/-- The line at the scrub pointer is checked, and the pointer moves on by 1 (R142, R145). -/
def scrubNext (s : State) : State :=
  (scrubLine s.sequencer.scrubPointer s).onSequencer fun q => { q with scrubPointer := (q.scrubPointer + 1) % 128 }

/-! ### Results and line faults (R139 to R141) -/

/-- A report taken for a step, none where there is no valid one, against the zone's window (R139). -/
def classify (low high : Nat) : Option Report → LastResult
  | none => .failed .noReport
  | some r =>
    if r.valid = false then .failed .noReport
    else if r.ampFailed then .failed .ampFail
    else if r.earth then .failed .earth
    else if high < r.load then .failed .lineOpen
    else if r.load < low then .failed .lineShort
    else .normal

/-- A zone's fields after a result (R140). -/
def countResult (r : LastResult) (e : ZoneResult) : ZoneResult :=
  match r with
  | .normal => { last := .normal, failures := 0, counted := none, normals := min (e.normals + 1) 2 }
  | .failed k =>
    { last := .failed k
      failures := if 0 < e.failures ∧ e.counted = some k then min (e.failures + 1) 2 else 1
      counted := some k
      normals := 0 }
  | other => { e with last := other }

/-- The fields of zone `z` after a result (R140). -/
def setResult (z : Nat) (r : LastResult) (s : State) : State :=
  s.onSequencer fun q => { q with zones := q.zones.set z (countResult r (q.zones.get z)) }

/-- The line fault of a failure kind (R141). -/
def lineFault (z : Nat) : FailKind → FaultId
  | .lineOpen => .lineOpen z
  | .lineShort => .lineShort z
  | .earth => .earth z
  | .ampFail => .ampFail z
  | .noReport => .noReport z

/-- The line-fault requests after a recorded result (R141). -/
def askLineFaults (z : Nat) (r : LastResult) (s : State) : State :=
  match r with
  | .failed k => if (s.sequencer.zones.get z).failures = 2 then addFault (lineFault z k) s else s
  | .normal =>
    if (s.sequencer.zones.get z).normals = 2 then
      removeFault (.noReport z) (removeFault (.ampFail z) (removeFault (.earth z) (removeFault (.lineShort z)
        (removeFault (.lineOpen z) s))))
    else s
  | _ => s

/-- A report's result recorded and its line faults asked for; nothing where the zone's record is marked (R140, R141). -/
def recordResult (z : Nat) (report : Option Report) (s : State) : State :=
  match useZone z s with
  | (t, false) => t
  | (t, true) =>
    let e := s.tables.fields.zones.get z
    let r := classify e.low e.high report
    askLineFaults z r (setResult z r t)

/-! ### The end of a step (R142) -/

def setStep (p : StepState) (s : State) : State := s.onSequencer fun q => { q with step := p }

/-- One owed step passes from the overdue count to a clear latch (R142, stage 7). -/
def Sequencer.passOwed (q : Sequencer) : Sequencer :=
  if q.latch = false ∧ 0 < q.overdue then { q with latch := true, overdue := q.overdue - 1 } else q

/-- Stages 4 to 7 of the end of the step on zone `z` (R142). -/
def closeStep (z : Nat) (s : State) : State :=
  (setStep .idle (scrubNext (s.onSequencer fun q => { q with pointer := (z + 1) % 128 }))).onSequencer
    Sequencer.passOwed

/-- A step without a reservation ends with the result of a report (R142). -/
def endStep (z : Nat) (report : Option Report) (s : State) : State := closeStep z (recordResult z report s)

/-- A pilot step ends with the result of a report, and its reservation is released (R133, R142). -/
def endPilot (z : Nat) (report : Option Report) (s : State) : State :=
  closeStep z (releaseReservation z (recordResult z report s))

/-- A deferred step ends BUSY_SKIPPED (R137, R140). -/
def endBusySkipped (z : Nat) (s : State) : State := closeStep z (setResult z .busySkipped s)

/-! ### Starting a step (R129 to R131, R138) -/

/-- The report an in-use test of `z` reads: none where reports are not available (R138). -/
def reportInUse (s : State) (z : Nat) : Option Report :=
  if s.sequencer.reportsAvailable then s.zPort.reports.get z else none

/-- An in-use test of `z` (R138). -/
def inUseTest (z : Nat) (s : State) : State := endStep z (reportInUse s z) s

/-- The step state when an answer of level 1 or 2 defers a step on `z`: unchanged where it is deferred on `z` already
(R131, R136). -/
def StepState.deferOn (z : Nat) : StepState → StepState
  | .deferred y n => if y = z then .deferred y n else .deferred z 0
  | _ => .deferred z 0

/-- The answer to the reservation request of `z` acted on (R131, R136). -/
def actOnAnswer (z level : Nat) (s : State) : State :=
  if level = 0 then setStep (.pilot z) s
  else if 3 ≤ level then inUseTest z s
  else s.onSequencer fun q => { q with step := q.step.deferOn z }

/-- The opening of a step on its chosen zone (R131). -/
def openStep (z : Nat) (s : State) : State :=
  if s.sequencer.reportsAvailable = false then endStep z none s
  else
    match requestReservation z s with
    | (t, level) => actOnAnswer z level t

/-- The first supervised zone from `z` on, over `n` zones; every record read is used (R130). -/
def search : Nat → Nat → State → State × Option Nat
  | 0, _, s => (s, none)
  | n + 1, z, s =>
    match useZone z s with
    | (t, ok) =>
      if ok = true ∧ (s.tables.fields.zones.get z).supervised = true then (t, some z) else search n ((z + 1) % 128) t

/-- The start of a step (R129, R130). -/
def startStep (s : State) : State :=
  let t := s.onSequencer fun q => { q with latch := false }
  match search 128 t.sequencer.pointer t with
  | (u, some z) => openStep z (u.onSequencer fun q => { q with pointer := z })
  | (u, none) => (scrubNext u).onSequencer Sequencer.passOwed

/-- Steps started while the Sequencer is IDLE with the latch set, at most `n` (R129). -/
def runSteps : Nat → State → State
  | 0, s => s
  | n + 1, s => if s.sequencer.step = .idle ∧ s.sequencer.latch = true then runSteps n (startStep s) else s

/-- Every owed step that can start is started; each start uses up one of them (R129). -/
def startOwed (s : State) : State := runSteps (s.sequencer.overdue + 1) s

/-! ### Requests for steps (R127, R128) -/

/-- The overdue count raised by `n`, saturating at 255 (R127). -/
def Sequencer.owe (n : Nat) (q : Sequencer) : Sequencer := { q with overdue := min (q.overdue + n) 255 }

/-- `n` steps owed, `n` at least 1: the first sets a clear latch, the others raise the overdue count (R127, R128). -/
def Sequencer.request (n : Nat) (q : Sequencer) : Sequencer :=
  if q.latch = false then Sequencer.owe (n - 1) { q with latch := true } else q.owe n

/-- A deferral limit reached ends the step on `z` after `n` ticks (R137). -/
def checkDeferral (z n : Nat) (s : State) : State :=
  match readTiming Header.deferralLimit s with
  | (t, limit) => if limit ≤ n then startOwed (endBusySkipped z t) else t

/-- A supervision tick (R127, R137). -/
def supervisionTick (s : State) : State :=
  match s.sequencer.step with
  | .deferred z n =>
    checkDeferral z (n + 1) (s.onSequencer fun q => { q.owe 1 with step := .deferred z (n + 1) })
  | _ => startOwed (s.onSequencer (Sequencer.request 1))

/-- SWEEP at the Sequencer (R128). -/
def sweep (count : Nat) (s : State) : State × Status :=
  if count = 0 ∨ 128 < count then (s, .badValue)
  else (startOwed (s.onSequencer (Sequencer.request count)), .ok)

/-! ### Events of a step in hand (R132 to R136) -/

/-- The zone of a step in PILOT, SETTLE or SAMPLE (R134). -/
def StepState.pilotZone : StepState → Option Nat
  | .pilot z => some z
  | .settle z _ => some z
  | .sample z _ => some z
  | _ => none

/-- An abort naming zone `z` (R134). -/
def abort (z : Nat) (s : State) : State :=
  if s.sequencer.step.pilotZone = some z then startOwed ((setStep .idle s).onSequencer (Sequencer.request 1)) else s

/-- A reservation of the deferred zone `z`, whose holder has fallen to NONE (R136). -/
def askDeferred (z : Nat) (s : State) : State := startOwed (openStep z s)

/-- A holder report of `level` for zone `z` (R136). -/
def holderReport (z level : Nat) (s : State) : State :=
  match s.sequencer.step with
  | .deferred y _ =>
    if y = z then
      if level = 0 then askDeferred z s else if 3 ≤ level then startOwed (inUseTest z s) else s
    else s
  | _ => s

/-- PILOT ends at a return frame: SETTLE for the settle count (R132). -/
def beginSettle (z : Nat) (s : State) : State :=
  match readTiming Header.settleCount s with
  | (t, count) => setStep (.settle z count) t

/-- The arrival of a return frame (R132, R133). -/
def returnFrameArrival (s : State) : State :=
  match s.sequencer.step with
  | .pilot z => beginSettle z s
  | .settle z n => setStep (if n ≤ 1 then .sample z 16 else .settle z (n - 1)) s
  | .sample z n =>
    match s.zPort.reports.get z with
    | some r =>
      if r.valid then startOwed (endPilot z (some r) s)
      else if n ≤ 1 then startOwed (endPilot z none s) else setStep (.sample z (n - 1)) s
    | none => if n ≤ 1 then startOwed (endPilot z none s) else setStep (.sample z (n - 1)) s
  | _ => s

def setAvailable (b : Bool) (s : State) : State := s.onSequencer fun q => { q with reportsAvailable := b }

/-- The notice that return reports are absent (R135). -/
def reportsAbsent (s : State) : State :=
  match s.sequencer.step.pilotZone with
  | some z => startOwed (endPilot z none (setAvailable false s))
  | none => setAvailable false s

/-! ### What the Zone Arbiter has sent (R101, R103, R126) -/

def takeMail : SequencerMail → State → State
  | .report z level, s => holderReport z level s
  | .abort z, s => abort z s

/-- The Sequencer takes what the Zone Arbiter has sent, oldest first, at most `n` messages (log 3). -/
def drain : Nat → State → State
  | 0, s => s
  | n + 1, s =>
    match s.mail with
    | [] => s
    | m :: rest => drain n (takeMail m { s with mail := rest })

/-- The messages one command takes at most (log 3). -/
def drainFuel : Nat := 1024

/-- The outcome of a command that leaves the blocks in `s`: the Sequencer first takes its messages (log 3). -/
def settled (s : State) : Out := .next (drain drainFuel s)

/-! ### The commands -/

/-- SUPERVISION_TICK (R127). -/
def execSupervisionTick (s : State) : Out := settled (supervisionTick s)

/-- SCRUB_LINE (R144). -/
def execScrubLine (line : Nat) (s : State) : Out := settled (if line < 128 then scrubLine line s else s)

/-- RESERVATION_ANSWER: acted on in IDLE, where a step is opened with the zone chosen, and in DEFERRED on that zone; an answer
of level 0 only where the zone is reserved, as that answer says it is (R131, R136, log 22). -/
def execReservationAnswer (zone level : Nat) (s : State) : Out :=
  settled
    (if 128 ≤ zone ∨ (level = 0 ∧ s.arbiter.reserved ≠ some zone) then s
    else
      match s.sequencer.step with
      | .idle => startOwed (actOnAnswer zone level (s.onSequencer fun q => { q with pointer := zone }))
      | .deferred z _ => if z = zone then startOwed (actOnAnswer zone level s) else s
      | _ => s)

/-- ABORT (R134). -/
def execAbort (zone : Nat) (s : State) : Out := settled (abort zone s)

/-- HOLDER_REPORT (R136). -/
def execHolderReport (zone level : Nat) (s : State) : Out := settled (holderReport zone level s)

/-- RETURN_FRAME_ARRIVAL (R132, R133). -/
def execReturnFrameArrival (s : State) : Out := settled (returnFrameArrival s)

/-- SETTLE_END: a settle counter that stands at 0 (R132, log 6). -/
def execSettleEnd (s : State) : Out :=
  .next
    (match s.sequencer.step with
    | .settle z 0 => setStep (.sample z 16) s
    | _ => s)

/-- SAMPLE_WINDOW_END: a sample counter that stands at 0 (R133, log 6). -/
def execSampleWindowEnd (s : State) : Out :=
  settled
    (match s.sequencer.step with
    | .sample z 0 => startOwed (endPilot z none s)
    | _ => s)

/-- DEFERRAL_LIMIT: the deferral tick count is compared with the limit (R137). Reading the limit is a use of the header even
where the count stands below it: the model's choice (log 6). -/
def execDeferralLimit (s : State) : Out :=
  settled
    (match s.sequencer.step with
    | .deferred z n => checkDeferral z n s
    | _ => s)

/-- REPORTS_ABSENT (R135). -/
def execReportsAbsent (s : State) : Out := settled (reportsAbsent s)

/-- REPORTS_AVAILABLE (R135). -/
def execReportsAvailable (s : State) : Out := .next (setAvailable true s)

end Sys2Proof.Machine
end

