-- ==== Sys2Proof/Machine/Controls.lean ====
section
/-! DEFINITION. The commands of the Incident Engine (files 03 and 04): detection reports, the incident tick and the officer
controls. -/

namespace Sys2Proof.Machine

/-! ### Officer controls as requests (R61, R155) -/

/-- A control that names the incident `id`: every answer to it carries the id (R61, R182). -/
def namedControl (requestType : Nat) (f : Nat → Incident → State → State × Status) (q : Sender) (id : Nat)
    (s : State) : State :=
  request q requestType .operate [byte id] (onNamed id f) s

/-- A control that names no incident: always answered OK (R68, R69). -/
def wholeControl (requestType : Nat) (f : State → State) (q : Sender) (s : State) : State :=
  request q requestType .operate [] (fun t => (f t, some (.ok, []))) s

def holdRequest (q : Sender) (id : Nat) (s : State) : State := namedControl 14 holdIncident q id s

def resumeRequest (q : Sender) (id : Nat) (s : State) : State := namedControl 15 resumeIncident q id s

def advanceRequest (q : Sender) (id : Nat) (s : State) : State := namedControl 16 advanceIncident q id s

def resetIncidentRequest (q : Sender) (id : Nat) (s : State) : State := namedControl 17 resetIncidentAt q id s

def evacuateAllRequest (q : Sender) (s : State) : State := wholeControl 18 evacuateAll q s

def resetAllRequest (q : Sender) (s : State) : State := wholeControl 19 resetAll q s

/-! ### The commands -/

/-- The incident tick, given to the Incident Engine and then to the Table Store (R57, R106, R163, log 4). -/
def incidentTick (s : State) : State := leaseTick (engineTick s)

/-- INCIDENT_TICK (R57). -/
def execIncidentTick (s : State) : Out := settled (incidentTick s)

/-- FIRE (R42). -/
def execFire (dz : Nat) (s : State) : Out := settled (fire dz s)

/-- RESTORE (R38). -/
def execRestore (dz : Nat) (s : State) : Out := .next (restore dz s)

/-- DFAULT (R37). -/
def execDfault (dz : Nat) (s : State) : Out := .next (dfault dz s)

/-- DFAULT_CLEAR (R37). -/
def execDfaultClear (dz : Nat) (s : State) : Out := .next (dfaultClear dz s)

/-- DETECT_DISCARD: no effect on any state (R35). -/
def execDetectDiscard (_dz _event : Nat) (s : State) : Out := .next s

/-- CONFIRM_DEADLINE_EXPIRY (R52, log 6). -/
def execConfirmDeadlineExpiry (id : Nat) (s : State) : Out := settled (expireNamed id s)

/-- ALL_CLEAR_END (R75, log 6). -/
def execAllClearEnd (zone : Nat) (s : State) : Out := settled (endAllClear zone s)

/-- HOLD (R63). -/
def execHold (sender : Sender) (id : Nat) (s : State) : Out := settled (holdRequest sender id s)

/-- RESUME (R64). -/
def execResume (sender : Sender) (id : Nat) (s : State) : Out := settled (resumeRequest sender id s)

/-- ADVANCE (R65). -/
def execAdvance (sender : Sender) (id : Nat) (s : State) : Out := settled (advanceRequest sender id s)

/-- RESET_INCIDENT (R67). -/
def execResetIncident (sender : Sender) (id : Nat) (s : State) : Out := settled (resetIncidentRequest sender id s)

/-- EVACUATE_ALL (R68). -/
def execEvacuateAll (sender : Sender) (s : State) : Out := settled (evacuateAllRequest sender s)

/-- RESET_ALL (R69). -/
def execResetAll (sender : Sender) (s : State) : Out := settled (resetAllRequest sender s)

end Sys2Proof.Machine
end

