-- ==== Sys2Proof/Machine/Claims.lean ====
section
/-! DEFINITION. The commands of the Zone Arbiter (file 05): claims, releases, answers, masks, plan claims and the
supervision reservation. -/

namespace Sys2Proof.Machine

/-! ### CLAIM (R85, R86) -/

/-- The selection of a claim, where it is not refused BAD_VALUE (R85, check 4). -/
def selectionOf : SelectionField → Option Selection
  | .span first count =>
    if count = 0 ∨ 128 < count ∨ 128 < first + count then none else some (.span first count)
  | .groups set => if set = 0 then none else some (.groups set)
  | .unknown _ => none

/-- The levels a live claim may carry (R85, check 3). -/
def isLiveLevel (level : Nat) : Bool := level = 1 || level = 2 || level = 6 || level = 7

/-- A claim in the table, in any state, holds the channel (R85, check 5): no slot is numbered 16. -/
def channelHeld (s : State) (channel : Nat) : Bool := channelHeldBeside s 16 channel

/-- The lowest free slot (R86). -/
def freeSlot (s : State) : Option Nat := (List.range 16).find? fun k => (s.arbiter.claims.get k).isNone

/-- The record of an accepted claim as it is placed (R86). -/
def newClaim (station channel level : Nat) (sel : Selection) (arrival : Nat) : Claim where
  station := station
  channel := channel
  level := level
  selection := sel
  state := .pending
  arrival := arrival
  waitCount := 0
  zonesHeld := 0

/-- An accepted claim placed in slot `k` with the next arrival stamp (R84, R86). -/
def placeClaim (k station level channel : Nat) (sel : Selection) (s : State) : State :=
  s.onArbiter fun a =>
    let b := a.nextArrival
    { b with claims := b.claims.set k (some (newClaim station channel level sel b.arrivalCounter)) }

/-- An accepted claim: ON-AIR at once at level 7, else PENDING and tested (R86). -/
def acceptClaim (k station level channel : Nat) (sel : Selection) (s : State) : State :=
  if level = 7 then enterOnAir k (placeClaim k station level channel sel s)
  else wouldWinTest [k] (placeClaim k station level channel sel s)

/-- The claim checks from the level on, and the acceptance: the state and the result (R85). -/
def decideClaim (station level channel : Nat) (field : SelectionField) (s : State) : State × ClaimResult :=
  if isLiveLevel level = false then (s, .badLevel)
  else
    match if 31 < channel then none else selectionOf field with
    | none => (s, .badValue)
    | some sel =>
      if channelHeld s channel then (s, .channelBusy)
      else
        match freeSlot s with
        | none => (s, .full)
        | some k => (acceptClaim k station level channel sel s, .accepted k)

/-- A claim with its place reserved: the state and the result (R85). The authority is looked up for every claim, and held
against the requirement after the binding is (R17). -/
def judgeClaim (station level channel : Nat) (field : SelectionField) (s : State) : State × ClaimResult :=
  match authorityOf station s with
  | (t, found) =>
    if t.router.address = 0 then (t, .notBound)
    else if Authority.operate.meets found = false then (t, .denied)
    else decideClaim station level channel field t

/-- A CLAIM cell taken by the part: discarded where no response place is free, else answered (R85, R152). -/
def claim (q : Sender) (level channel : Nat) (field : SelectionField) (s : State) : State :=
  if s.hasPlace = false then s
  else
    match judgeClaim q.station level channel field (reservePlace q s) with
    | (t, result) => giveAnswer .command (.claimResponse result) t

/-! ### RELEASE and ANSWER (R90, R96) -/

/-- A RELEASE cell from `station` for `slot` (R96). -/
def release (station slot : Nat) (s : State) : State :=
  match s.arbiter.claims.get slot with
  | some c => if c.station = station then freeSlots [slot] s else s
  | none => s

/-- An ANSWER cell, given to `f` where it is taken (R90). -/
def answer (f : Nat → Claim → State → State) (station slot number : Nat) (s : State) : State :=
  match answeredClaim s station slot number with
  | some c => f slot c s
  | none => s

/-- A WITHDRAW answer for the claim in slot `k` (R93). -/
def takeWithdraw (k : Nat) (_ : Claim) (s : State) : State := dropClaims .withdrawn [k] s

/-! ### SET MASK (R81) -/

/-- The runtime masks of a span of zones set to `value`. -/
def setMasks (first count value : Nat) (s : State) : State :=
  s.onArbiter fun a =>
    { a with masks := a.masks.mapIdx fun z m => if first ≤ z ∧ z < first + count then value else m }

/-- SET MASK at the Zone Arbiter (R81, R88). -/
def setMask (first count value : Nat) (s : State) : State × Status :=
  if count = 0 ∨ 128 < first + count ∨ 6 < value then (s, .badValue)
  else
    (testPending
      (chooseAndCheck s.arbiter.masks ((List.range count).map (first + ·)) (setMasks first count value s)), .ok)

/-! ### The commands -/

/-- PLAN_CLAIM_HANDOVER (R73). -/
def execPlanClaimHandover (changes : List (Nat × Option PlanKind)) (s : State) : Out :=
  settled (takePlanClaims changes s)

/-- CLAIM (R85). -/
def execClaim (sender : Sender) (level channel : Nat) (selection : SelectionField) (s : State) : Out :=
  settled (claim sender level channel selection s)

/-- RELEASE (R96). -/
def execRelease (station slot : Nat) (s : State) : Out := settled (release station slot s)

/-- ANSWER_READY (R91). -/
def execAnswerReady (station slot number : Nat) (s : State) : Out := settled (answer takeReady station slot number s)

/-- ANSWER_DEFAULT (R92). -/
def execAnswerDefault (station slot number : Nat) (s : State) : Out :=
  settled (answer takeDefault station slot number s)

/-- ANSWER_WITHDRAW (R93). -/
def execAnswerWithdraw (station slot number : Nat) (s : State) : Out :=
  settled (answer takeWithdraw station slot number s)

/-- ANSWER_WAIT (R93). -/
def execAnswerWait (station slot number : Nat) (s : State) : Out := settled (answer takeWait station slot number s)

/-- CONFIRM_TIMEOUT: the claim's timer stands at 0 in CONFIRMING (R89, log 6). -/
def execConfirmTimeout (slot : Nat) (s : State) : Out :=
  settled
    (match s.arbiter.claims.get slot with
    | some c => if c.state.timedOut then dropClaims .noAnswer [slot] s else s
    | none => s)

/-- RETRY_INTERVAL_END: the claim's timer stands at 0 in WAITING (R93, log 6). -/
def execRetryIntervalEnd (slot : Nat) (s : State) : Out :=
  settled
    (match s.arbiter.claims.get slot with
    | some c => if c.state.retryDue then enterConfirming slot s else s
    | none => s)

/-- SET MASK as a request; 12 is its request type (R81, R155). -/
def setMaskRequest (q : Sender) (first count value : Nat) (s : State) : State :=
  request q 12 .operate [] (fun t => match setMask first count value t with | (u, st) => (u, some (st, []))) s

/-- SET_MASK (R81). -/
def execSetMask (sender : Sender) (first count value : Nat) (s : State) : Out :=
  settled (setMaskRequest sender first count value s)

/-- RESERVATION_REQUEST: the zone is reserved where its holder is NONE; the answer goes to no step in hand, and
RESERVATION_ANSWER carries it as a command of its own (R102, log 22). -/
def execReservationRequest (zone : Nat) (s : State) : Out :=
  settled (if zone < 128 then (requestReservation zone s).1 else s)

/-- RESERVATION_RELEASE (R102). -/
def execReservationRelease (zone : Nat) (s : State) : Out := settled (releaseReservation zone s)

end Sys2Proof.Machine
end

