-- ==== Sys2Proof/Machine/Crosspoint.lean ====
section
/-! DEFINITION. The Crosspoint (file 06, sections 6.4 and 6.5): channel presence, trims, internal tones and the slots of the
Z-frame. -/

namespace Sys2Proof.Machine

/-! ### Channel presence (R115 to R117) -/

def setRun (c n : Nat) (s : State) : State := s.onCrosspoint fun x => { x with runs := x.runs.set c n }

def setPresence (c : Nat) (p : Presence) (s : State) : State :=
  s.onCrosspoint fun x => { x with presence := x.presence.set c p }

def setSample (c : Nat) (v : Sample) (s : State) : State :=
  s.onCrosspoint fun x => { x with samples := x.samples.set c v }

/-- A channel whose run counter has reached 64: the counter goes to 0 and the presence state changes (R116, R117). -/
def changePresence (c : Nat) (s : State) : State :=
  match s.crosspoint.presence.get c with
  | .absent => setPresence c .present (setRun c 0 s)
  | .lost => removeFault (.sourceLost c) (setPresence c .present (setRun c 0 s))
  | .present => channelLost c (addFault (.sourceLost c) (setPresence c .lost (setRun c 0 s)))

/-- The present bit differs from the channel's state (R116). -/
def bitDiffers (p : Presence) (bit : Bool) : Bool := bit != decide (p = .present)

/-- The present bit of a channel compared with its state (R116). -/
def takeBit (c : Nat) (bit : Bool) (s : State) : State :=
  if bitDiffers (s.crosspoint.presence.get c) bit then
    if 64 ≤ s.crosspoint.runs.get c + 1 then changePresence c s else setRun c (s.crosspoint.runs.get c + 1) s
  else setRun c 0 s

/-- One channel slot of a good period taken in UP (R116). -/
def takeSlot (c : Nat) (v : Sample) (bit : Bool) (s : State) : State := takeBit c bit (setSample c v s)

/-- Sample `c` of an S-frame, given its bytes from the frame number on (file 10). -/
def frameSample (l : List Byte) (c : Nat) : Sample := BitVec.ofNat 16 (wordAt l (1 + 2 * c))

/-- The 32 channel slots of a good period taken (R116), in ascending channel order: the model's choice (log 33). -/
def takeSlots (l : List Byte) (s : State) : State :=
  (List.range 32).foldl (fun t c => takeSlot c (frameSample l c) (bitAt l 65 c) t) s

/-- Every sample store silent (R109, R116). -/
def silence (s : State) : State := s.onCrosspoint fun x => { x with samples := .const 0 }

/-! ### SET TRIM (R122) -/

/-- The runtime trims of a span of zones set to `value`. -/
def setTrims (first count value : Nat) (s : State) : State :=
  s.onCrosspoint fun x =>
    { x with trims := x.trims.mapIdx fun z t => if first ≤ z ∧ z < first + count then value else t }

/-- SET TRIM at the Crosspoint (R122). -/
def setTrim (first count value : Nat) (s : State) : State × Status :=
  if count = 0 ∨ 128 < first + count ∨ 31 < value then (s, .badValue) else (setTrims first count value s, .ok)

/-- SET TRIM as a request; 13 is its request type (R122, R155). -/
def setTrimRequest (q : Sender) (first count value : Nat) (s : State) : State :=
  request q 13 .operate [] (fun t => match setTrim first count value t with | (u, st) => (u, some (st, []))) s

/-! ### Trim (R121) -/

/-- The gain of each trim 0 to 31 dB: the whole number nearest to 65,536 times 10 to the power of minus t over 20 (R121). -/
def trimGains : List Nat :=
  [65536, 58409, 52057, 46396, 41350, 36854, 32846, 29274, 26090, 23253, 20724, 18471, 16462, 14672, 13076, 11654] ++
    [10387, 9257, 8250, 7353, 6554, 5841, 5206, 4640, 4135, 3685, 3285, 2927, 2609, 2325, 2072, 1847]

def trimGain (t : Nat) : Nat := trimGains.getD t 0

/-- A sample attenuated by a trim of `t` dB: multiplied by the gain, divided by 65,536 and rounded toward zero (R121). -/
def attenuate (t : Nat) (v : Sample) : Sample := BitVec.ofInt 16 (Int.tdiv (v.toInt * trimGain t) 65536)

/-! ### Internal tones (R120) -/

/-- A sample held within the stated peak of 8,192 (R120, log 9). -/
def withinPeak (v : Sample) : Sample := BitVec.ofInt 16 (max (-8192) (min 8192 v.toInt))

/-- The present sample of the stream of a kind (R120). -/
def tone (kind : PlanKind) (f : FrameTimer) : Sample :=
  match kind with
  | .alert => if f.seconds % 2 = 1 then 0 else withinPeak (Config.toneShape (planKindCode .alert) f.frameCount)
  | kind => withinPeak (Config.toneShape (planKindCode kind) f.frameCount)

/-! ### Zone slots (R118, R119, R123) -/

/-- The content of one zone slot. -/
structure ZoneSlot where
  sample : Sample
  mute : Bool
  pilot : Bool
  deriving DecidableEq, Repr

/-- The sample of a plan zone whose translation entry is `e`, FILL or marked being none (R119). -/
def translated (s : State) (kind : PlanKind) (e : Option Nat) : Sample :=
  match e with
  | some c => if s.crosspoint.presence.get c = .present then s.crosspoint.samples.get c else tone kind s.timer
  | none => tone kind s.timer

/-- The index of a group and kind in the Message Translation Table (R14). -/
def translationIndex (group : Nat) (kind : PlanKind) : Nat := 3 * group + planKindCode kind

/-- The sample of a plan zone of `group` (R119). -/
def groupSample (group : Nat) (kind : PlanKind) (s : State) : State × Sample :=
  match useEntry (translationRef (translationIndex group kind)) s with
  | (t, true) => (t, translated t kind (s.tables.fields.translations.get (translationIndex group kind)))
  | (t, false) => (t, tone kind t.timer)

/-- The sample placed in zone `z`'s slot before trim (R119; a record marked by this reading, log 21). -/
def zoneSample (z : Nat) (s : State) : State × Sample :=
  match s.crosspoint.records.get z with
  | .none => (s, 0)
  | .slot _ c => (s, s.crosspoint.samples.get c)
  | .plan kind =>
    match useZone z s with
    | (t, false) => (t, tone kind t.timer)
    | (t, true) => groupSample (s.tables.fields.zones.get z).group kind t

/-- The slot of zone `z` (R119, R121, R123). -/
def buildSlot (z : Nat) (s : State) : State × ZoneSlot :=
  match zoneSample z s with
  | (t, v) =>
    (t,
      { sample := attenuate (t.crosspoint.trims.get z) v
        mute := decide (s.crosspoint.records.get z = .none)
        pilot := decide (s.arbiter.reserved = some z) })

/-- The slots of `n` zones from `z` on (R118), built in ascending order: the model's choice (log 33). What a slot's marking
changes of later zones shows in their slots of this frame: the model's choice too (log 21). -/
def buildSlots : Nat → Nat → State → State × List ZoneSlot
  | 0, _, s => (s, [])
  | n + 1, z, s =>
    match buildSlot z s with
    | (t, x) =>
      match buildSlots n (z + 1) t with
      | (u, more) => (u, x :: more)

/-- The sample bytes, mute bits and pilot bits of 128 slots (file 10). -/
def slotBytes (xs : List ZoneSlot) : List Byte :=
  xs.flatMap (fun x => bytes2 x.sample.toNat) ++
    packBits 16 (fun z => (xs[z]?).elim false ZoneSlot.mute) ++ packBits 16 (fun z => (xs[z]?).elim false ZoneSlot.pilot)

/-! ### The commands -/

/-- CHANNEL_PRESENCE_CHANGE: the run counter of the channel stands at 64 (R116, log 6). -/
def execChannelPresenceChange (channel : Nat) (s : State) : Out :=
  settled (if 64 ≤ s.crosspoint.runs.get channel then changePresence channel s else s)

/-- SET_TRIM (R122). -/
def execSetTrim (sender : Sender) (first count value : Nat) (s : State) : Out :=
  settled (setTrimRequest sender first count value s)

end Sys2Proof.Machine
end

