-- ==== Sys2Proof/Machine/Edits.lean ====
section
/-! DEFINITION. The edit transaction's requests and moments (file 08, section 8.5). -/

namespace Sys2Proof.Machine

/-! ### EDIT BEGIN (R2, R161) -/

/-- The Incident List is empty and GENERAL is clear (R161, R167). -/
def State.quiet (s : State) : Bool := s.engine.incidents.isEmpty && s.engine.general.isNone

/-- The edit that EDIT BEGIN opens (R161). -/
def newEdit (owner : Nat) (staging : Image) : Edit where
  owner := owner
  lease := 30
  staging := staging
  phase := .opened

/-- EDIT BEGIN at the Table Store (R2, R161, log 17). -/
def editBegin (owner : Nat) (s : State) : State × Reply :=
  if s.tables.edit.isSome then (s, some (.editBusy, []))
  else if s.quiet = false then (s, some (.incidentActive, []))
  else ((markFailing s).setEdit (some (newEdit owner (stagingCopy s))), some (.ok, []))

/-! ### WRITE ENTRY and WRITE LINE (R162, R163) -/

/-- Checks 1 to 5 of a write from `station`: the table and the edit, or the status of the first failure (R162). -/
def writeCheck (station table index : Nat) (s : State) : Except Status (TableName × Edit) :=
  match tableOfNumber table with
  | none => .error .badTable
  | some t =>
    if tableEntries t ≤ index then .error .badIndex
    else
      match s.tables.edit with
      | none => .error .noEdit
      | some e =>
        if e.owner ≠ station then .error .notOwner
        else if e.phase.isValidating then .error .editBusy
        else .ok (t, e)

/-- The lease reloaded to 30 s (R163). -/
def Edit.reload (e : Edit) : Edit := { e with lease := 30 }

/-- The staging image with the entries written. -/
def Edit.write (entries : List (Nat × Entry)) (e : Edit) : Edit :=
  { e with staging := entries.foldl (fun im p => im.setEntry p.1 p.2) e.staging }

/-- WRITE ENTRY at the Table Store (R162). -/
def writeEntry (station table index : Nat) (contents : List Byte) (s : State) : State × Reply :=
  match writeCheck station table index s with
  | .error st => (s, some (st, []))
  | .ok (t, e) =>
    match readEntry t contents with
    | none => (s.setEdit (some e.reload), some (.badValue, []))
    | some x => (s.setEdit (some (e.reload.write [(index, x)])), some (.ok, []))

/-- The indices of the aligned group of four of `index`, in wrap order (R158). -/
def lineIndices (index : Nat) : List Nat := (List.range 4).map fun i => index / 4 * 4 + (index + i) % 4

/-- The four positions of a line of table `t` with the contents given for each, those beyond the end left out (R162). -/
def lineContents (t : TableName) (index : Nat) (contents : List Byte) : List (Nat × List Byte) :=
  ((List.range 4).map fun i => (index / 4 * 4 + (index + i) % 4, (contents.drop (12 * i)).take 12)).filter
    fun p => decide (p.1 < tableEntries t)

/-- The entries of a line, or the index of the first failing position (R162). -/
def readLineEntries (t : TableName) : List (Nat × List Byte) → Except Nat (List (Nat × Entry))
  | [] => .ok []
  | (i, b) :: rest =>
    match readEntry t b with
    | none => .error i
    | some x =>
      match readLineEntries t rest with
      | .error j => .error j
      | .ok more => .ok ((i, x) :: more)

/-- WRITE LINE at the Table Store (R162). -/
def writeLine (station table index : Nat) (contents : List Byte) (s : State) : State × Reply :=
  match writeCheck station table index s with
  | .error st => (s, some (st, []))
  | .ok (t, e) =>
    match readLineEntries t (lineContents t index contents) with
    | .error i => (s.setEdit (some e.reload), some (.badValue, bytes2 i))
    | .ok xs => (s.setEdit (some (e.reload.write xs)), some (.ok, []))

/-! ### EDIT COMMIT and EDIT CANCEL (R164, R165) -/

/-- The edit taken from OPEN by a commit: 32 frame events of validation, the lease reloaded (R163, R164). -/
def Edit.committed (e : Edit) : Edit := { e with lease := 30, phase := .validating 32 }

/-- EDIT COMMIT at the Table Store; the answer to one taken is held back (R164). -/
def editCommit (station : Nat) (s : State) : State × Reply :=
  match s.tables.edit with
  | none => (s, some (.noEdit, []))
  | some e =>
    if e.owner ≠ station then (s, some (.notOwner, []))
    else if e.phase.isValidating then (s, some (.editBusy, []))
    else (keepForCommit (s.setEdit (some e.committed)), none)

/-- EDIT CANCEL at the Table Store (R165). -/
def editCancel (station : Nat) (s : State) : State × Reply :=
  match s.tables.edit with
  | none => (s, some (.noEdit, []))
  | some e =>
    if e.owner ≠ station then (s, some (.notOwner, [])) else (answerEnded e (s.setEdit none), some (.ok, []))

/-! ### As requests; the numbers are the request types of file 10 (R155) -/

def editBeginRequest (q : Sender) (s : State) : State := request q 7 .configure [] (editBegin q.station) s

def writeEntryRequest (q : Sender) (table index : Nat) (contents : List Byte) (s : State) : State :=
  request q 8 .configure [] (writeEntry q.station table index contents) s

def writeLineRequest (q : Sender) (table index : Nat) (contents : List Byte) (s : State) : State :=
  request q 9 .configure [] (writeLine q.station table index contents) s

def editCommitRequest (q : Sender) (s : State) : State := request q 10 .configure [] (editCommit q.station) s

def editCancelRequest (q : Sender) (s : State) : State := request q 11 .configure [] (editCancel q.station) s

/-! ### The commands -/

/-- EDIT_BEGIN (R161). -/
def execEditBegin (sender : Sender) (s : State) : Out := settled (editBeginRequest sender s)

/-- WRITE_ENTRY (R162). -/
def execWriteEntry (sender : Sender) (table index : Nat) (contents : List Byte) (s : State) : Out :=
  settled (writeEntryRequest sender table index contents s)

/-- WRITE_LINE (R162). -/
def execWriteLine (sender : Sender) (table index : Nat) (contents : List Byte) (s : State) : Out :=
  settled (writeLineRequest sender table index contents s)

/-- EDIT_COMMIT (R164). -/
def execEditCommit (sender : Sender) (s : State) : Out := settled (editCommitRequest sender s)

/-- EDIT_CANCEL (R165). -/
def execEditCancel (sender : Sender) (s : State) : Out := settled (editCancelRequest sender s)

/-- VALIDATION_END: no frame event of the validation is left (R164, log 6). -/
def execValidationEnd (s : State) : Out :=
  .next
    (match s.tables.edit with
    | some e => if e.phase = .validating 0 then endValidation e s else s
    | none => s)

/-- INSTALL: the validation has passed (R3, R164). -/
def execInstall (s : State) : Out := settled (installIfPassed s)

/-- LEASE_EXPIRY: the lease stands at 0 in OPEN (R163, log 6). -/
def execLeaseExpiry (s : State) : Out :=
  .next
    (match s.tables.edit with
    | some e => if leaseRunOut e then expireEdit s else s
    | none => s)

/-- BREAK_NOTICE (R166). -/
def execBreakNotice (s : State) : Out := .next (breakEdit s)

end Sys2Proof.Machine
end

