-- ==== Sys2Proof/Machine/Requests.lean ====
section
/-! DEFINITION. The requests of file 08 that are given nowhere else: BIND, STATUS, the reads, FIND, SWEEP, the notice
controls and RESTART. -/

namespace Sys2Proof.Machine

/-! ### BIND (R156) -/

/-- A station address that may be bound (R156). -/
def isStation (n : Nat) : Bool := decide (1 ≤ n) && decide (n ≤ 254)

/-- BIND at the Cell Router (R156). -/
def takeBinding (address destination : Nat) (s : State) : State × Reply :=
  if s.router.address ≠ 0 then (s, some (.alreadyBound, []))
  else if isStation address = false ∨ isStation destination = false then (s, some (.badValue, []))
  else
    (s.onRouter fun r => { r with address := address, destination := some destination }, some (.ok, []))

/-! ### STATUS (R157, R182) -/

/-- The place is filled. -/
def Place.isFilled : Place → Bool
  | .filled _ => true
  | _ => false

/-- The code of the edit state: 0 CLOSED, 1 OPEN, 2 VALIDATING (R182). -/
def editCode : Option Edit → Nat
  | none => 0
  | some e => if e.phase.isValidating then 2 else 1

/-- The number of claims whose state meets `p`. -/
def State.claimsIn (s : State) (p : ClaimState → Bool) : Nat := (slotsWhere s fun c => p c.state).length

def ClaimState.isPending : ClaimState → Bool
  | .pending => true
  | _ => false

def ClaimState.isConfirming : ClaimState → Bool
  | .confirming _ _ => true
  | _ => false

def ClaimState.isWaiting : ClaimState → Bool
  | .waiting _ => true
  | _ => false

def ClaimState.isOnAir : ClaimState → Bool
  | .onAir _ => true
  | _ => false

/-- The step zone, 255 when none (R182). -/
def StepState.zoneCode : StepState → Nat
  | .idle => 255
  | .deferred z _ => z
  | .pilot z => z
  | .settle z _ => z
  | .sample z _ => z

/-- The data of the STATUS response (R157, R182). `request` calls it with the STATUS's own response place already reserved, so
that place is counted among the reserved places: the model's choice (log 34). -/
def statusData (s : State) : List Byte :=
  [byte s.router.address, byte (s.router.destination.getD 0), byte s.router.sToZ.length, byte s.router.zToS.length,
      byte (s.router.places.filter Place.isFilled).length, byte s.router.confirms.length,
      byte (s.router.places.filter fun p => !p.isFilled).length] ++
    bytes4 s.timer.seconds ++
    [byte (sLinkCode s.sPort.link)] ++ bytes2 s.sPort.inboundCount ++ [byte (zLinkCode s.zPort.link)] ++
    [byte (editCode s.tables.edit), byte (s.tables.edit.elim 0 Edit.owner), byte (s.tables.edit.elim 0 Edit.lease)] ++
    [byte s.engine.incidents.length, byte (flag s.engine.general.isSome), byte (causeCode s.engine.general)] ++
    [byte (s.claimsIn ClaimState.isPending), byte (s.claimsIn ClaimState.isConfirming),
      byte (s.claimsIn ClaimState.isWaiting), byte (s.claimsIn ClaimState.isOnAir)] ++
    [byte (stepStateCode s.sequencer.step), byte s.sequencer.step.zoneCode, byte s.sequencer.pointer,
      byte (flag s.sequencer.latch), byte s.sequencer.overdue, byte s.sequencer.scrubPointer] ++
    [byte s.faultUnit.list.length, byte (flag s.faultUnit.overflow), byte (flag s.faultUnit.enabled),
      byte s.faultUnit.queue.length, byte (flag s.faultUnit.overrun)]

/-! ### READ ENTRY and READ LINE (R158, R181) -/

/-- The image a read names: the in-effect image, or the staging image where an edit is open; or the status that refuses
it (R158). -/
def readImage (image : Nat) (s : State) : Except Status Image :=
  match image with
  | 0 => .ok s.tables.fields
  | 1 =>
    match s.tables.edit with
    | none => .error .noEdit
    | some e => .ok e.staging
  | _ => .error .badValue

/-- The checks of a read: the table and the image (R158). -/
def readCheck (table index image : Nat) (s : State) : Except Status (TableName × Image) :=
  match tableOfNumber table with
  | none => .error .badTable
  | some t =>
    if tableEntries t ≤ index then .error .badIndex
    else
      match readImage image s with
      | .error st => .error st
      | .ok im => .ok (t, im)

/-- The mark byte of a position (R181). -/
def markCode (s : State) (t : TableName) (image i : Nat) : Nat :=
  if tableEntries t ≤ i then 2
  else if image = 0 ∧ s.marked { table := t, index := i } = true then 1
  else 0

/-- The image of a position as it travels: zeros beyond the end of the table (R158, R182). -/
def positionImage (t : TableName) (im : Image) (i : Nat) : List Byte :=
  if tableEntries t ≤ i then List.replicate 12 0 else entryImage (im.entry { table := t, index := i })

/-- READ ENTRY at the Table Store (R158). -/
def readOne (table index image : Nat) (s : State) : Status × List Byte :=
  match readCheck table index image s with
  | .error st => (st, [])
  | .ok (t, im) =>
    (.ok, [byte table] ++ bytes2 index ++ [byte image] ++ [byte (markCode s t image index)] ++ positionImage t im index)

/-- READ LINE at the Table Store (R158). -/
def readFour (table index image : Nat) (s : State) : Status × List Byte :=
  match readCheck table index image s with
  | .error st => (st, [])
  | .ok (t, im) =>
    (.ok,
      [byte table] ++ bytes2 index ++ [byte image] ++
        (lineIndices index).map (fun i => byte (markCode s t image i)) ++
        (lineIndices index).flatMap (positionImage t im))

/-! ### READ STATE (R159, R182) -/

def incidentStateCode : IncidentState → Nat
  | .confirming _ => 1
  | .active => 2
  | .held => 3

def IncidentState.deadline : IncidentState → Nat
  | .confirming d => d
  | _ => 0

def conditionCode : Condition → Nat
  | .inAlarm => 0
  | .restored => 1

/-- The last-step record of an incident record (R182). -/
def lastStepBytes : Option LastStep → List Byte
  | none => [0, 0, 0, 0, 0, 0]
  | some l =>
    [1, byte l.step] ++ (match l.range with | none => [255, 255] | some (low, high) => [byte low, byte high]) ++
      [byte l.clipped, byte l.unplaced]

/-- INCIDENT RECORD (R182). -/
def incidentBytes (i : Incident) : List Byte :=
  [byte i.id, byte (incidentStateCode i.state), byte i.origin, byte i.plan, byte i.dzList.length] ++
    padTo 12 (i.dzList.flatMap fun e => bytes2 e.1 ++ [byte (conditionCode e.2)]) ++
    [byte i.further] ++ bytes2 i.state.deadline ++ bytes2 i.elapsed ++ stepBytes i.nextStep ++
    lastStepBytes i.lastStep ++ [byte (flag i.planFault)]

/-- INCIDENT DEMAND (R159, R182). -/
def demandBytes (i : Incident) : List Byte :=
  packBits 16 (fun z => decide (i.demand.get z ≠ .none)) ++ packBits 16 (fun z => decide (i.demand.get z = .evacuate))

/-- The code, on-air stamp, confirm number and timer of a claim state; 0 where absent (R182). -/
def claimStateFields : ClaimState → Nat × Nat × Nat × Nat
  | .pending => (1, 0, 0, 0)
  | .confirming n t => (2, 0, n, t)
  | .waiting t => (3, 0, 0, t)
  | .onAir stamp => (4, stamp, 0, 0)

/-- CLAIM: the timer in whole milliseconds (R83, R182). -/
def claimBytes : Option Claim → List Byte
  | none => List.replicate 17 0
  | some c =>
    match claimStateFields c.state with
    | (code, stamp, number, timer) =>
      [1, byte c.station, byte c.channel, byte c.level] ++ selectionBytes c.selection ++ [byte code] ++
        bytes2 c.arrival ++ bytes2 stamp ++ [byte c.waitCount, byte number] ++ bytes2 (timer / 16) ++
        [byte c.zonesHeld]

def holderCode : Holder → Nat
  | .none => 255
  | .plan => 254
  | .slot k => k

/-- ZONE: the base values as stored, without a check (R159, R182). -/
def zoneBytes (s : State) (z : Nat) : List Byte :=
  let e := s.tables.fields.zones.get z
  let r := s.sequencer.zones.get z
  [byte (holderCode (s.arbiter.holders.get z)), byte ((s.arbiter.planClaims.get z).elim 0 planLevel),
      byte ((s.arbiter.planClaims.get z).elim 0 planKindCode), byte (s.arbiter.masks.get z), byte e.baseMask,
      byte (flag (decide (s.arbiter.reserved = some z))), byte (demandCode (s.engine.demand.get z))] ++
    bytes2 (s.engine.allClear.get z) ++
    [byte (s.crosspoint.trims.get z), byte e.baseTrim, byte (flag (s.zPort.reports.get z).isSome)] ++
    ((s.zPort.reports.get z).elim [0, 0] reportBytes) ++
    [byte (resultCode r.last), byte r.failures, byte (r.counted.elim 255 failCode), byte r.normals]

/-- CHANNEL (R182). -/
def channelBytes (s : State) (c : Nat) : List Byte :=
  [byte (presenceCode (s.crosspoint.presence.get c)), byte (s.crosspoint.runs.get c)]

/-- FAULT PAGE: entries 6p to 6p + 5 of the list (R159, R182). -/
def faultPageBytes (s : State) (page : Nat) : List Byte :=
  byte s.faultUnit.list.length ::
    ((s.faultUnit.list.drop (6 * page)).take 6).flatMap fun e => faultBytes e.fault ++ bytes4 e.stamp

/-- The incident a READ STATE names, by id (form 0) or by position (form 1) (R159). -/
def namedIncident (form number : Nat) (s : State) : Except Status Incident :=
  match form with
  | 0 =>
    if number = 0 ∨ 255 < number then .error .badIndex
    else
      match s.engine.incidents.find? fun i => decide (i.id = number) with
      | some i => .ok i
      | none => .error .notFound
  | 1 =>
    if 7 < number then .error .badIndex
    else
      match s.incident number with
      | some i => .ok i
      | none => .error .notFound
  | _ => .error .badValue

/-- A record named by a number below `limit` (R159). -/
def numbered (limit number : Nat) (record : List Byte) : Except Status (List Byte) :=
  if number < limit then .ok record else .error .badIndex

/-- The record a READ STATE names (R159). -/
def stateRecord (kind form number : Nat) (s : State) : Except Status (List Byte) :=
  match kind with
  | 1 => (namedIncident form number s).map incidentBytes
  | 2 => (namedIncident form number s).map demandBytes
  | 3 => numbered 16 number (claimBytes (s.arbiter.claims.get number))
  | 4 => numbered 128 number (zoneBytes s number)
  | 5 => numbered 32 number (channelBytes s number)
  | 6 => numbered 11 number (faultPageBytes s number)
  | _ => .error .badValue

/-- READ STATE at the record's owner (R159, R182). -/
def readState (kind form number : Nat) (s : State) : Status × List Byte :=
  match stateRecord kind form number s with
  | .error st => (st, [])
  | .ok record => (.ok, [byte kind, byte form] ++ bytes2 number ++ record)

/-! ### FIND (R160) -/

/-- The first zone from `z` on, over `n` zones, whose last result lies in the set or, for NON-MEMBER, does not; the zone and
how many zones are left from it. -/
def findFrom (s : State) (set : BitVec 8) (member : Bool) : Nat → Nat → Nat × Nat
  | 0, z => (z, 0)
  | n + 1, z =>
    if set.getLsbD (resultCode (s.sequencer.zones.get z).last) = member then (z, n + 1)
    else findFrom s set member n (z + 1)

/-- FIND at the Supervision Sequencer: sense 0 is MEMBER, 1 NON-MEMBER (R160, R181). -/
def find (first count sense : Nat) (set : BitVec 8) (s : State) : Status × List Byte :=
  if 128 < first + count ∨ 1 < sense then (.badValue, [])
  else
    match findFrom s set (decide (sense = 0)) count first with
    | (z, n) => (.ok, [byte z, byte n])

/-! ### The notice controls (R176, R177) -/

/-- ENABLE NOTICES at the Fault Unit (R176). -/
def enableNotices (s : State) : State :=
  notify (.snapshot s.faultUnit.list.length s.engine.incidents.length s.engine.general)
    (s.onFaultUnit fun u => { u with enabled := true })

/-- DISABLE NOTICES at the Fault Unit (R177). -/
def disableNotices (s : State) : State :=
  s.onFaultUnit fun u => { u with enabled := false, queue := [], overrun := false }

/-! ### RESTART (R167) -/

/-- The edit closed by RESTART, without a notification (R167, stage 2). -/
def closeEdit (s : State) : State :=
  match s.tables.edit with
  | none => s
  | some e => answerEnded e (s.setEdit none)

/-- The reservation held, whichever zone it is on, released (R102, R104, R147). -/
def releaseAny (s : State) : State :=
  match s.arbiter.reserved with
  | some z => releaseReservation z s
  | none => s

/-- The Sequencer at its starting values, its reservation released (R147; R167, stage 3). -/
def restartSequencer (s : State) : State :=
  releaseAny (s.onSequencer fun q => .start q.reportsAvailable)

/-- Several faults asked for in order. -/
def addFaults (fs : List FaultId) (s : State) : State := fs.foldl (fun t f => addFault f t) s

/-- The faults of the conditions still true, in the order of R167, stage 6. -/
def standingFaults (s : State) : List FaultId :=
  (if s.zPort.link = .down ∧ s.zPort.established = true then [.zLink] else []) ++
    (indices 32 fun c => decide (s.crosspoint.presence.get c = .lost)).map FaultId.sourceLost ++
    (indices 128 fun z => decide (3 ≤ s.arbiter.masks.get z)).map FaultId.zoneDisabled ++
    (markedInOrder s).map FaultId.tableCorrupt

/-- The Fault List rebuilt (R167, stage 6). -/
def rebuildFaults (s : State) : State :=
  addFaults (standingFaults s) (s.onFaultUnit fun u => { u with list := [], overflow := false })

/-- The notification queue emptied (R167, stage 7). -/
def emptyNotices (s : State) : State := s.onFaultUnit fun u => { u with queue := [], overrun := false }

/-- The confirm request queue emptied (R167, stage 8). -/
def emptyConfirms (s : State) : State := s.onRouter fun r => { r with confirms := [] }

/-- RESTART, in its eight stages (R167). -/
def restart (s : State) : State :=
  emptyConfirms (emptyNotices (rebuildFaults (takeBaseValues (stopAllClear (restartSequencer (closeEdit
    (dropAll .restart s)))))))

/-! ### As requests; the numbers are the request types of file 10 (R155) -/

/-- A request that only reads. -/
def reading (f : State → Status × List Byte) (s : State) : State × Reply := (s, some (f s))

def bindRequest (q : Sender) (address destination : Nat) (s : State) : State :=
  request q 1 .configure [] (takeBinding address destination) s

def statusRequest (q : Sender) (s : State) : State :=
  request q 2 .monitor [] (reading fun t => (.ok, statusData t)) s

def readEntryRequest (q : Sender) (table index image : Nat) (s : State) : State :=
  request q 3 .monitor [] (reading (readOne table index image)) s

def readLineRequest (q : Sender) (table index image : Nat) (s : State) : State :=
  request q 4 .monitor [] (reading (readFour table index image)) s

def readStateRequest (q : Sender) (kind form number : Nat) (s : State) : State :=
  request q 5 .monitor [] (reading (readState kind form number)) s

def findRequest (q : Sender) (first count sense : Nat) (set : BitVec 8) (s : State) : State :=
  request q 6 .monitor [] (reading (find first count sense set)) s

def sweepRequest (q : Sender) (count : Nat) (s : State) : State :=
  request q 20 .operate [] (fun t => match sweep count t with | (u, st) => (u, some (st, []))) s

def enableNoticesRequest (q : Sender) (s : State) : State :=
  request q 21 .operate [] (fun t => (enableNotices t, some (.ok, []))) s

def disableNoticesRequest (q : Sender) (s : State) : State :=
  request q 22 .operate [] (fun t => (disableNotices t, some (.ok, []))) s

/-- RESTART is refused INCIDENT_ACTIVE while the part is not quiet (R167). -/
def restartRequest (q : Sender) (s : State) : State :=
  request q 23 .configure []
    (fun t => if t.quiet then (restart t, some (.ok, [])) else (t, some (.incidentActive, []))) s

/-! ### The commands -/

/-- BIND (R156). -/
def execBind (sender : Sender) (address destination : Nat) (s : State) : Out :=
  settled (bindRequest sender address destination s)

/-- STATUS (R157). -/
def execStatus (sender : Sender) (s : State) : Out := settled (statusRequest sender s)

/-- READ_ENTRY (R158). -/
def execReadEntry (sender : Sender) (table index image : Nat) (s : State) : Out :=
  settled (readEntryRequest sender table index image s)

/-- READ_LINE (R158). -/
def execReadLine (sender : Sender) (table index image : Nat) (s : State) : Out :=
  settled (readLineRequest sender table index image s)

/-- READ_STATE (R159). -/
def execReadState (sender : Sender) (kind form number : Nat) (s : State) : Out :=
  settled (readStateRequest sender kind form number s)

/-- FIND (R160). -/
def execFind (sender : Sender) (first count sense : Nat) (results : BitVec 8) (s : State) : Out :=
  settled (findRequest sender first count sense results s)

/-- SWEEP (R128). -/
def execSweep (sender : Sender) (count : Nat) (s : State) : Out := settled (sweepRequest sender count s)

/-- ENABLE_NOTICES (R176). -/
def execEnableNotices (sender : Sender) (s : State) : Out := settled (enableNoticesRequest sender s)

/-- DISABLE_NOTICES (R177). -/
def execDisableNotices (sender : Sender) (s : State) : Out := settled (disableNoticesRequest sender s)

/-- RESTART (R167). -/
def execRestart (sender : Sender) (s : State) : Out := settled (restartRequest sender s)

end Sys2Proof.Machine
end

