-- ==== Sys2Proof/Machine/Ports.lean ====
section
/-! DEFINITION. The frame timer, the S-port and the Z-port (file 06, sections 6.1 to 6.3), the delivery of inbound cells (file
08, section 8.1), and the power-on reset. -/

namespace Sys2Proof.Machine

/-! ### Cells taken by the part (R149) -/

/-- What a cell-borne command does at the block that takes it; no other command is carried by a cell. -/
def takeCommand (i : Instr) (s : State) : State :=
  match i with
  | .fire d => fire d s
  | .restore d => restore d s
  | .dfault d => dfault d s
  | .dfaultClear d => dfaultClear d s
  | .claim q level channel field => claim q level channel field s
  | .release station slot => release station slot s
  | .answerReady station slot n => answer takeReady station slot n s
  | .answerDefault station slot n => answer takeDefault station slot n s
  | .answerWithdraw station slot n => answer takeWithdraw station slot n s
  | .answerWait station slot n => answer takeWait station slot n s
  | .bind q address destination => bindRequest q address destination s
  | .status q => statusRequest q s
  | .readEntry q table index image => readEntryRequest q table index image s
  | .readLine q table index image => readLineRequest q table index image s
  | .readState q kind form number => readStateRequest q kind form number s
  | .find q first count sense set => findRequest q first count sense set s
  | .editBegin q => editBeginRequest q s
  | .writeEntry q table index contents => writeEntryRequest q table index contents s
  | .writeLine q table index contents => writeLineRequest q table index contents s
  | .editCommit q => editCommitRequest q s
  | .editCancel q => editCancelRequest q s
  | .setMask q first count value => setMaskRequest q first count value s
  | .setTrim q first count value => setTrimRequest q first count value s
  | .hold q id => holdRequest q id s
  | .resume q id => resumeRequest q id s
  | .advance q id => advanceRequest q id s
  | .resetIncident q id => resetIncidentRequest q id s
  | .evacuateAll q => evacuateAllRequest q s
  | .resetAll q => resetAllRequest q s
  | .sweep q count => sweepRequest q count s
  | .enableNotices q => enableNoticesRequest q s
  | .disableNotices q => disableNoticesRequest q s
  | .restart q => restartRequest q s
  | .unknownRequest q type => unknownRequest q type s
  | _ => s

/-- The type of a cell is DETECT. -/
def isDetect (c : List Byte) : Bool := byteAt c 2 = 1

/-- A broadcast cell that is taken: DETECT, or the request BIND or STATUS (R149). -/
def takenBroadcast (c : List Byte) : Bool := isDetect c || (byteAt c 2 = 5 && takenUnbound (byteAt c 4))

/-- A cell taken by the part, where its type is taken and, but for DETECT, its source is a station (R149). -/
def takeCell (c : List Byte) (s : State) : State :=
  match readCell c with
  | some i => if isDetect c || isStation (byteAt c 1) then takeCommand i s else s
  | none => s

/-- A rebuilt inbound cell with a good CRC (R149); a broadcast cell is taken before it is forwarded. -/
def deliverCell (c : List Byte) (s : State) : State :=
  if byteAt c 0 = 255 then forwardSToZ c (if takenBroadcast c then takeCell c s else s)
  else if byteAt c 0 = s.router.address then takeCell c s
  else forwardSToZ c s

/-! ### Cell reassembly (R111) -/

/-- The segment of a frame whose segment control byte stands at `i` (file 10). -/
def segmentAt (l : List Byte) (i : Nat) : Segment :=
  { marker := (byteAt l i).testBit 0, bytes := (l.drop (i + 1)).take 16 }

/-- The segment of a good period: the partial cell it leaves, and the cell it completes (R111). -/
def rebuild (g : Segment) (held : List Byte) : List Byte × Option (List Byte) :=
  if g.marker then (g.bytes, none)
  else if held = [] then ([], none)
  else if 64 ≤ (held ++ g.bytes).length then ([], some (held ++ g.bytes))
  else (held ++ g.bytes, none)

/-- The partial cell as a good frame of number `n` after one of number `last` finds it: a number that is not the next one is a
break (R111). -/
def afterNumber (n last : Nat) (held : List Byte) : List Byte := if n = (last + 1) % 256 then held else []

/-! ### The S-link (R107 to R111) -/

/-- The samples, present bits, control byte and segment of an S-frame with its number: 86 covered bytes (file 10, R179). -/
def sFrameGood (l : List Byte) : Bool := frameGood 86 l

/-- Entry to UP from HUNT (R110). -/
def sLinkUp (s : State) : State :=
  let t := s.onSPort fun p => { p with link := .up, established := true, goodRun := 0, failedRun := 0 }
  let u := removeFault .sLink (t.onTimer fun f => { f with lock := .awaitingPhase })
  u.onCrosspoint fun x => { x with presence := .const .absent, runs := .const 0 }

/-- The return from HUNT when the failed-period run reaches 4 (R108). -/
def huntFailed (s : State) : State :=
  s.onSPort fun p => { p with link := if p.established then .island else .down }

/-- The Cell Router told that the S-link has left UP (R112, R151). -/
def routerLinkLost (s : State) : State :=
  s.onRouter fun r => { r with zToS := [], places := [], confirms := [], sSending := [] }

/-- The Crosspoint told that the S-link has left UP: SOURCE_LOST is withdrawn from each channel that had it (R109). -/
def crosspointLinkLost (s : State) : State :=
  let lost := indices 32 fun c => decide (s.crosspoint.presence.get c = .lost)
  lost.foldl (fun t c => removeFault (.sourceLost c) t)
    (silence (s.onCrosspoint fun x => { x with presence := .const .lost, runs := .const 0 }))

/-- Entry to ISLAND from UP (R109). -/
def sLinkIsland (s : State) : State :=
  let t := s.onSPort fun p => { p with link := .island, established := true, partialCell := [] }
  dropAll .link
    (crosspointLinkLost (routerLinkLost (addFault .sLink (t.onTimer fun f => { f with lock := .free }))))

/-- A good period settled in UP: the channel slots go to the Crosspoint, the segment to reassembly, and a completed cell with a
good CRC to the Cell Router (R107, R111). The slots are taken before the cell: the model's choice (log 37). `last` is the number
of the good frame before. -/
def sGoodInUp (last : Nat) (l : List Byte) (s : State) : State :=
  let t := drain drainFuel (takeSlots l (s.onSPort fun p => { p with failedRun := 0 }))
  match rebuild (segmentAt l 69) (afterNumber (byteAt l 0) last t.sPort.partialCell) with
  | (held, done) =>
    let u := t.onSPort fun p => { p with partialCell := held }
    match done with
    | some c => if cellGood c then deliverCell c u else u
    | none => u

/-- A bad or missed period settled in UP (R107, R108). -/
def sFailInUp (s : State) : State :=
  let t := silence (s.onSPort fun p => { p with failedRun := p.failedRun + 1, partialCell := [] })
  if 4 ≤ t.sPort.failedRun then sLinkIsland t else t

/-- A good period settled in HUNT (R108). -/
def sGoodInHunt (s : State) : State :=
  let t := s.onSPort fun p => { p with goodRun := p.goodRun + 1, failedRun := 0 }
  if 16 ≤ t.sPort.goodRun then sLinkUp t else t

/-- A missed period settled in HUNT (R108). -/
def sMissInHunt (s : State) : State :=
  let t := s.onSPort fun p => { p with goodRun := 0, failedRun := p.failedRun + 1 }
  if 4 ≤ t.sPort.failedRun then huntFailed t else t

/-- A good period in any state: the inbound frame count and the last good frame number (R107). -/
def countGood (l : List Byte) (s : State) : State :=
  s.onSPort fun p => { p with inboundCount := (p.inboundCount + 1) % 65536, lastNumber := byteAt l 0 }

/-- A good period settled (R107). -/
def sGood (l : List Byte) (s : State) : State :=
  match s.sPort.link with
  | .up => sGoodInUp s.sPort.lastNumber l (countGood l s)
  | .hunt => sGoodInHunt (countGood l s)
  | _ => countGood l s

/-- A bad period settled (R108). -/
def sBad (s : State) : State :=
  match s.sPort.link with
  | .up => sFailInUp s
  | .hunt => s.onSPort fun p => { p with goodRun := 0, failedRun := 0 }
  | _ => s

/-- A missed period settled (R108). -/
def sMissed (s : State) : State :=
  match s.sPort.link with
  | .up => sFailInUp s
  | .hunt => sMissInHunt s
  | _ => s

/-- The period just ended settled: good, bad or missed (R107; the frame received, log 12). -/
def sPeriodSettle (received : Option (List Byte)) (s : State) : State :=
  match received with
  | none => sMissed s
  | some l => if sFrameGood l then sGood l s else sBad s

/-! ### The Z-link (R113, R114) -/

/-- Entry to UP (R113). -/
def zLinkUp (s : State) : State :=
  setAvailable true
    (removeFault .zLink (s.onZPort fun p => { p with link := .up, goodRun := 0, established := true }))

/-- Entry to DOWN from UP (R113). -/
def zLinkDown (s : State) : State :=
  reportsAbsent
    ((addFault .zLink (s.onZPort fun p => { p with link := .down, failedRun := 0 })).onZPort fun p =>
      { p with partialCell := [], reports := .const none })

/-- The reports of a return frame, given its bytes from the frame number on (R114, file 10). -/
def frameReports (l : List Byte) : Tab (Option Report) 128 :=
  (Tab.const none : Tab (Option Report) 128).mapIdx fun z _ => some (readReport l (1 + 2 * z))

/-- A good return period settled in UP: reports, return cell, then the Sequencer is told (R111, R114, log 26). -/
def zGoodInUp (last : Nat) (l : List Byte) (s : State) : State :=
  match rebuild (segmentAt l 257) (afterNumber (byteAt l 0) last s.zPort.partialCell) with
  | (held, done) =>
    let t := s.onZPort fun p => { p with failedRun := 0, reports := frameReports l, partialCell := held }
    returnFrameArrival
      (match done with
      | some c => if cellGood c then forwardZToS c t else t
      | none => t)

/-- A good return period settled in DOWN (R113). -/
def zGoodInDown (s : State) : State :=
  let t := s.onZPort fun p => { p with goodRun := p.goodRun + 1 }
  if 16 ≤ t.zPort.goodRun then zLinkUp t else t

/-- A good return period settled (R113). -/
def zGood (l : List Byte) (s : State) : State :=
  let t := s.onZPort fun p => { p with lastNumber := byteAt l 0 }
  match s.zPort.link with
  | .up => zGoodInUp s.zPort.lastNumber l t
  | .down => zGoodInDown t

/-- A bad or missed return period settled (R113). -/
def zFail (s : State) : State :=
  match s.zPort.link with
  | .up =>
    let t := s.onZPort fun p => { p with failedRun := p.failedRun + 1, partialCell := [] }
    if 4 ≤ t.zPort.failedRun then zLinkDown t else t
  | .down => s.onZPort fun p => { p with goodRun := 0 }

/-- The return period just ended settled (R113; 274 covered bytes, file 10; log 12). -/
def zPeriodSettle (received : Option (List Byte)) (s : State) : State :=
  match received with
  | some l => if frameGood 274 l then zGood l s else zFail s
  | none => zFail s

/-! ### Frames sent (R112, R118, R150) -/

/-- The frame number of the frames sent (R112). -/
def frameNumber (f : FrameTimer) : Nat := (f.seconds * 16000 + f.frameCount) % 256

/-- A frame as sent: the start word, the covered bytes and their check (R179). -/
def frameOf (covered : List Byte) : List Byte := [0xB5, 0xC3] ++ withCrc covered

/-- The next segment of a cell being sent, idle where there is none, and what is left of it. -/
def nextSegment : List Segment → Segment × List Segment
  | [] => (idleSegment, [])
  | g :: rest => (g, rest)

/-- The cell lane of the Z-frames: the oldest cell of the S-to-Z queue starts where none is being sent (R150). -/
def startZCell (s : State) : State :=
  if s.router.zSending = [] then
    match s.router.sToZ with
    | c :: rest => s.onRouter fun r => { r with sToZ := rest, zSending := segmentsOf c }
    | [] => s
  else s

/-- A Z-frame built and sent (R118, R150, R179). -/
def zFrameBuild (s : State) : State :=
  match buildSlots 128 0 (startZCell (installIfPassed s)) with
  | (t, xs) =>
    let covered :=
      [byte (frameNumber t.timer)] ++ slotBytes xs ++ segmentBytes (nextSegment t.router.zSending).1
    (t.onRouter fun r => { r with zSending := (nextSegment r.zSending).2 }).onZPort fun p =>
      { p with sent := some (frameOf covered) }

/-- What is being sent on the S outbound lane: nothing outside UP (R112). -/
def sLane (s : State) : List Segment := if s.sPort.link = .up then s.router.sSending else []

/-- An outbound frame sent toward the sources (R112, R179). -/
def sOutboundFrame (s : State) : State :=
  let covered := [byte (frameNumber s.timer)] ++ segmentBytes (nextSegment (sLane s)).1
  (s.onRouter fun r => { r with sSending := (nextSegment (sLane s)).2 }).onSPort fun p =>
    { p with sent := some (frameOf covered) }

/-! ### The frame timer (R105, R106) -/

/-- The frame event completes a second (R106). -/
def FrameTimer.wraps (f : FrameTimer) : Bool := decide (15999 ≤ f.frameCount)

/-- The counts and the supervision divider at a frame event (R106). -/
def FrameTimer.count (f : FrameTimer) : FrameTimer :=
  { f with
    frameCount := if f.wraps then 0 else f.frameCount + 1
    seconds := if f.wraps then (f.seconds + 1) % 4294967296 else f.seconds
    divider := f.divider - 1 }

/-- The divider reloaded with the supervision tick interval, 1,600 frames for each unit (R106). -/
def reloadDivider (s : State) : State :=
  match readTiming Header.tickInterval s with
  | (t, interval) => t.onTimer fun f => { f with divider := interval * 1600 }

/-- The supervision tick, where the divider has reached 0 (R106). The divider is reloaded, a use of the header, before the
Sequencer takes the tick: the model's choice (log 4). -/
def dividerTick (s : State) : State :=
  if s.timer.divider = 0 then supervisionTick (drain drainFuel (reloadDivider s)) else s

/-- A frame event: the timer's counts, the timers counted in frames, and the ticks it gives (R89, R93, R106, R164, log 4). -/
def frameEvent (s : State) : State :=
  let t := validationFrame (claimTimers (s.onTimer FrameTimer.count))
  dividerTick (if s.timer.wraps then incidentTick t else t)

/-- A frame start arrives (R105, R108, log 11). -/
def frameStart (inWindow : Bool) (s : State) : State :=
  match s.sPort.link with
  | .hunt => s
  | .up =>
    match s.timer.lock with
    | .awaitingPhase => frameEvent (s.onTimer fun f => { f with lock := .locked })
    | .locked => if inWindow then frameEvent s else s
    | .free => s
  | _ => s.onSPort fun p => { p with link := .hunt, goodRun := 0, failedRun := 0 }

/-! ### The commands -/

/-- POWER_ON_RESET: every block at its power-on state (R125, log 25). -/
def execPowerOnReset (s : State) : Out := .next { State.reset with pending := s.pending }

/-- FRAME_EVENT (R106). -/
def execFrameEvent (s : State) : Out := settled (frameEvent s)

/-- FRAME_START (R108). -/
def execFrameStart (inWindow : Bool) (s : State) : Out := settled (frameStart inWindow s)

/-- S_PERIOD_SETTLE (R107). -/
def execSPeriodSettle (received : Option (List Byte)) (s : State) : Out := settled (sPeriodSettle received s)

/-- S_LINK_UP: the good-frame run stands at 16 in HUNT (R110, log 6). -/
def execSLinkUp (s : State) : Out :=
  .next (if s.sPort.link = .hunt ∧ 16 ≤ s.sPort.goodRun then sLinkUp s else s)

/-- HUNT_FAILED: the failed-period run stands at 4 in HUNT (R108, log 6). -/
def execHuntFailed (s : State) : Out :=
  .next (if s.sPort.link = .hunt ∧ 4 ≤ s.sPort.failedRun then huntFailed s else s)

/-- S_LINK_ISLAND: the failed-period run stands at 4 in UP (R109, log 6). -/
def execSLinkIsland (s : State) : Out :=
  settled (if s.sPort.link = .up ∧ 4 ≤ s.sPort.failedRun then sLinkIsland s else s)

/-- S_OUTBOUND_FRAME (R112). -/
def execSOutboundFrame (s : State) : Out := .next (sOutboundFrame s)

/-- Z_FRAME_BUILD (R118). -/
def execZFrameBuild (s : State) : Out := settled (zFrameBuild s)

/-- Z_PERIOD_SETTLE (R113). -/
def execZPeriodSettle (received : Option (List Byte)) (s : State) : Out := settled (zPeriodSettle received s)

/-- Z_LINK_UP: the good-frame run stands at 16 in DOWN (R113, log 6). -/
def execZLinkUp (s : State) : Out :=
  .next (if s.zPort.link = .down ∧ 16 ≤ s.zPort.goodRun then zLinkUp s else s)

/-- Z_LINK_DOWN: the failed-period run stands at 4 in UP (R113, log 6). -/
def execZLinkDown (s : State) : Out :=
  settled (if s.zPort.link = .up ∧ 4 ≤ s.zPort.failedRun then zLinkDown s else s)

end Sys2Proof.Machine
end

