-- ==== Sys2Proof/Machine/Dispatch.lean ====
section
/-! DEFINITION. The effect of each command on everything but the queue, one arm per command. -/

namespace Sys2Proof.Machine

def exec (i : Instr) (s : State) : Host.Outcome State Fault Refusal :=
  match i with
  | .powerOnReset => Sys2Proof.Machine.execPowerOnReset s
  | .frameEvent => Sys2Proof.Machine.execFrameEvent s
  | .incidentTick => Sys2Proof.Machine.execIncidentTick s
  | .supervisionTick => Sys2Proof.Machine.execSupervisionTick s
  | .frameStart inWindow => Sys2Proof.Machine.execFrameStart inWindow s
  | .sPeriodSettle received => Sys2Proof.Machine.execSPeriodSettle received s
  | .sLinkUp => Sys2Proof.Machine.execSLinkUp s
  | .huntFailed => Sys2Proof.Machine.execHuntFailed s
  | .sLinkIsland => Sys2Proof.Machine.execSLinkIsland s
  | .sOutboundFrame => Sys2Proof.Machine.execSOutboundFrame s
  | .zFrameBuild => Sys2Proof.Machine.execZFrameBuild s
  | .zPeriodSettle received => Sys2Proof.Machine.execZPeriodSettle received s
  | .zLinkUp => Sys2Proof.Machine.execZLinkUp s
  | .zLinkDown => Sys2Proof.Machine.execZLinkDown s
  | .returnCellForward cell => Sys2Proof.Machine.execReturnCellForward cell s
  | .cellForwardSToZ cell => Sys2Proof.Machine.execCellForwardSToZ cell s
  | .transmitterChoice => Sys2Proof.Machine.execTransmitterChoice s
  | .fire dz => Sys2Proof.Machine.execFire dz s
  | .restore dz => Sys2Proof.Machine.execRestore dz s
  | .dfault dz => Sys2Proof.Machine.execDfault dz s
  | .dfaultClear dz => Sys2Proof.Machine.execDfaultClear dz s
  | .detectDiscard dz event => Sys2Proof.Machine.execDetectDiscard dz event s
  | .confirmDeadlineExpiry id => Sys2Proof.Machine.execConfirmDeadlineExpiry id s
  | .allClearEnd zone => Sys2Proof.Machine.execAllClearEnd zone s
  | .planClaimHandover changes => Sys2Proof.Machine.execPlanClaimHandover changes s
  | .claim sender level channel selection => Sys2Proof.Machine.execClaim sender level channel selection s
  | .release station slot => Sys2Proof.Machine.execRelease station slot s
  | .answerReady station slot number => Sys2Proof.Machine.execAnswerReady station slot number s
  | .answerDefault station slot number => Sys2Proof.Machine.execAnswerDefault station slot number s
  | .answerWithdraw station slot number => Sys2Proof.Machine.execAnswerWithdraw station slot number s
  | .answerWait station slot number => Sys2Proof.Machine.execAnswerWait station slot number s
  | .confirmTimeout slot => Sys2Proof.Machine.execConfirmTimeout slot s
  | .retryIntervalEnd slot => Sys2Proof.Machine.execRetryIntervalEnd slot s
  | .channelPresenceChange channel => Sys2Proof.Machine.execChannelPresenceChange channel s
  | .bind sender address destination => Sys2Proof.Machine.execBind sender address destination s
  | .status sender => Sys2Proof.Machine.execStatus sender s
  | .readEntry sender table index image => Sys2Proof.Machine.execReadEntry sender table index image s
  | .readLine sender table index image => Sys2Proof.Machine.execReadLine sender table index image s
  | .readState sender kind form number => Sys2Proof.Machine.execReadState sender kind form number s
  | .find sender first count sense results => Sys2Proof.Machine.execFind sender first count sense results s
  | .editBegin sender => Sys2Proof.Machine.execEditBegin sender s
  | .writeEntry sender table index contents => Sys2Proof.Machine.execWriteEntry sender table index contents s
  | .writeLine sender table index contents => Sys2Proof.Machine.execWriteLine sender table index contents s
  | .editCommit sender => Sys2Proof.Machine.execEditCommit sender s
  | .validationEnd => Sys2Proof.Machine.execValidationEnd s
  | .install => Sys2Proof.Machine.execInstall s
  | .editCancel sender => Sys2Proof.Machine.execEditCancel sender s
  | .leaseExpiry => Sys2Proof.Machine.execLeaseExpiry s
  | .breakNotice => Sys2Proof.Machine.execBreakNotice s
  | .setMask sender first count value => Sys2Proof.Machine.execSetMask sender first count value s
  | .setTrim sender first count value => Sys2Proof.Machine.execSetTrim sender first count value s
  | .hold sender id => Sys2Proof.Machine.execHold sender id s
  | .resume sender id => Sys2Proof.Machine.execResume sender id s
  | .advance sender id => Sys2Proof.Machine.execAdvance sender id s
  | .resetIncident sender id => Sys2Proof.Machine.execResetIncident sender id s
  | .evacuateAll sender => Sys2Proof.Machine.execEvacuateAll sender s
  | .resetAll sender => Sys2Proof.Machine.execResetAll sender s
  | .sweep sender count => Sys2Proof.Machine.execSweep sender count s
  | .enableNotices sender => Sys2Proof.Machine.execEnableNotices sender s
  | .disableNotices sender => Sys2Proof.Machine.execDisableNotices sender s
  | .restart sender => Sys2Proof.Machine.execRestart sender s
  | .unknownRequest sender requestType => Sys2Proof.Machine.execUnknownRequest sender requestType s
  | .addFault fault => Sys2Proof.Machine.execAddFault fault s
  | .removeFault fault => Sys2Proof.Machine.execRemoveFault fault s
  | .queueNotification notice => Sys2Proof.Machine.execQueueNotification notice s
  | .scrubLine line => Sys2Proof.Machine.execScrubLine line s
  | .reservationRequest zone => Sys2Proof.Machine.execReservationRequest zone s
  | .reservationAnswer zone level => Sys2Proof.Machine.execReservationAnswer zone level s
  | .reservationRelease zone => Sys2Proof.Machine.execReservationRelease zone s
  | .abort zone => Sys2Proof.Machine.execAbort zone s
  | .holderReport zone level => Sys2Proof.Machine.execHolderReport zone level s
  | .returnFrameArrival => Sys2Proof.Machine.execReturnFrameArrival s
  | .settleEnd => Sys2Proof.Machine.execSettleEnd s
  | .sampleWindowEnd => Sys2Proof.Machine.execSampleWindowEnd s
  | .deferralLimit => Sys2Proof.Machine.execDeferralLimit s
  | .reportsAbsent => Sys2Proof.Machine.execReportsAbsent s
  | .reportsAvailable => Sys2Proof.Machine.execReportsAvailable s

end Sys2Proof.Machine
end

