-- ==== Sys2Proof/Safety.lean ====
section
/-! DEFINITION. The laws of the part's state that the manual names, and the words in which the statements are written. -/

namespace Sys2Proof.Machine

/-! ### The laws of the state -/

/-- The laws of the Fault Unit: at most 64 faults and no two alike (R169), an overflow flag only beside a list that is
not empty (R172), at most 32 notifications (R173), an overrun flag only beside a queue that is not empty (R175), and
nothing queued while notifications are disabled (R176, R177). -/
structure FaultUnitLaw (u : FaultUnit) : Prop where
  listSize : u.list.length ≤ 64
  noTwoAlike : (u.list.map FaultEntry.fault).Nodup
  overflow : u.overflow = true → u.list ≠ []
  queueSize : u.queue.length ≤ 32
  overrun : u.overrun = true → u.queue ≠ []
  disabled : u.enabled = false → u.queue = []

/-- The laws of demand: each zone's demand is the one formed from GENERAL and the incidents (R72), and an all-clear
timer runs only on a zone whose demand is NONE (R76). -/
structure DemandLaw (e : Engine) : Prop where
  formed : ∀ z < 128, e.demand.get z = e.formed z
  allClear : ∀ z < 128, e.allClear.get z ≠ 0 → e.demand.get z = .none

/-- An edit is never OPEN or VALIDATING while the Incident List is not empty or GENERAL is set (R161). -/
def EditLaw (s : State) : Prop := s.tables.edit.isSome = true → s.quiet = true

/-- No source channel belongs to two claims (R83). -/
def ChannelLaw (a : Arbiter) : Prop :=
  ∀ j < 16, ∀ k < 16, j ≠ k → ∀ c d, a.claims.get j = some c → a.claims.get k = some d → c.channel ≠ d.channel

/-- The law of one zone's holder: while the zone is reserved its holder is NONE and no winner has level 3 or more (R102,
R103); else its holder is the winner (R100). -/
structure HolderLaw (s : State) (z : Nat) : Prop where
  reserved : s.arbiter.reserved = some z → s.arbiter.holders.get z = .none ∧ (winner s z).2 < 3
  winner : s.arbiter.reserved ≠ some z → s.arbiter.holders.get z = (winner s z).1

/-- The law of one zone's holder record: the Crosspoint holds the zone's holder, with the kind of its plan claim or the channel
of its live claim (R101, R118). -/
structure RecordLaw (s : State) (z : Nat) : Prop where
  none : s.arbiter.holders.get z = .none → s.crosspoint.records.get z = .none
  plan : s.arbiter.holders.get z = .plan →
    ∃ kind, s.arbiter.planClaims.get z = some kind ∧ s.crosspoint.records.get z = .plan kind
  slot : ∀ k, s.arbiter.holders.get z = .slot k →
    ∃ c, s.arbiter.claims.get k = some c ∧ s.crosspoint.records.get z = .slot k c.channel

/-- The on-air stamp of a claim, where it is ON-AIR (R84). -/
def Claim.onAirStamp (c : Claim) : Option Nat :=
  match c.state with
  | .onAir n => some n
  | _ => none

/-- The laws of the stamps (R84): neither counter passes 65535, no stamp is 0 or passes its counter, and no two claims hold one
stamp of a kind. -/
structure StampLaw (a : Arbiter) : Prop where
  arrivalCounter : a.arrivalCounter ≤ 65535
  onAirCounter : a.onAirCounter ≤ 65535
  arrivals : ∀ k < 16, ∀ c, a.claims.get k = some c → 1 ≤ c.arrival ∧ c.arrival ≤ a.arrivalCounter
  stamps : ∀ k < 16, ∀ n, (a.claims.get k).bind Claim.onAirStamp = some n → 1 ≤ n ∧ n ≤ a.onAirCounter
  arrivalsDiffer : ∀ j < 16, ∀ k < 16, j ≠ k → ∀ c d, a.claims.get j = some c → a.claims.get k = some d →
    c.arrival ≠ d.arrival
  stampsDiffer : ∀ j < 16, ∀ k < 16, j ≠ k → ∀ n, (a.claims.get j).bind Claim.onAirStamp = some n →
    (a.claims.get k).bind Claim.onAirStamp ≠ some n

/-- The zones whose holder is slot `k`. -/
def zonesOf (a : Arbiter) (k : Nat) : List Nat := indices 128 fun z => decide (a.holders.get z = .slot k)

/-- Every claim's zones-held count is the number of zones whose holder is its slot (R95). -/
def CountLaw (a : Arbiter) : Prop :=
  ∀ k < 16, ∀ c, a.claims.get k = some c → c.zonesHeld = (zonesOf a k).length

/-- The supervision pointer, the step zone and the reserved zone are zones, and the scrub pointer is a scrub line (R102,
R126, R143). -/
structure ZoneLaw (s : State) : Prop where
  pointer : s.sequencer.pointer < 128
  scrub : s.sequencer.scrubPointer < 128
  step : s.sequencer.step ≠ .idle → s.sequencer.step.zoneCode < 128
  reserved : ∀ z, s.arbiter.reserved = some z → z < 128

/-- The capacities of the Cell Router's queues (R148), at most one confirm request for each of the 16 slots (R154),
cells of 64 bytes and segments of 16 (file 10). -/
structure RouterLaw (r : Router) : Prop where
  sToZ : r.sToZ.length ≤ 8
  zToS : r.zToS.length ≤ 8
  places : r.places.length ≤ 8
  confirms : r.confirms.length ≤ 16
  oneEach : (r.confirms.map ConfirmRequest.slot).Nodup
  slots : ∀ c ∈ r.confirms, c.slot < 16
  cells : ∀ c ∈ r.sToZ ++ r.zToS, c.length = 64
  segments : ∀ g ∈ r.sSending ++ r.zSending, g.bytes.length = 16

/-- Between commands no response place waits for the command in hand. -/
def HandLaw (r : Router) : Prop := ∀ p ∈ r.places, ∀ q, p ≠ .reserved .command q

/-- Between commands no step that could start waits: in IDLE the latch is clear and nothing is owed (R129). -/
def OwedLaw (q : Sequencer) : Prop := q.step = .idle → q.latch = false ∧ q.overdue = 0

/-- The laws of the Incident List: at most 8 records (R39), ids 1 to 255 and no two alike (R41), no two records of one
origin storey (R42), and a DZ list of 1 to 4 detection zones (R40, R48). -/
structure IncidentLaw (e : Engine) : Prop where
  size : e.incidents.length ≤ 8
  counter : 1 ≤ e.idCounter ∧ e.idCounter ≤ 255
  ids : ∀ i ∈ e.incidents, 1 ≤ i.id ∧ i.id ≤ 255
  noIdTwice : (e.incidents.map Incident.id).Nodup
  noOriginTwice : (e.incidents.map Incident.origin).Nodup
  dzList : ∀ i ∈ e.incidents, 1 ≤ i.dzList.length ∧ i.dzList.length ≤ 4

/-- The plan claim the arbiter holds for each zone is the one the Incident Engine forms for it (R73, R77). -/
def PlanClaimLaw (s : State) : Prop := ∀ z < 128, s.arbiter.planClaims.get z = s.engine.planClaim z

/-! ### The tables as the statements speak of them -/

/-- An entry that is not marked and passes its check (R5, R6). -/
abbrev Sound (s : State) (r : EntryRef) : Prop := s.marked r = false ∧ s.passes r = true

/-- Every entry of the in-effect image is sound. -/
def SoundTables (s : State) : Prop := ∀ r, Sound s r

/-- A field of the Building Header as its users get it: the power-on value where the header is not sound (R9). -/
def headerValue (f : Header → Nat) (s : State) : Nat :=
  if s.marked headerRef = false ∧ s.passes headerRef = true then f s.tables.fields.header else f .powerOn

/-- The state after the header has been used once (R6). -/
def headerUsed (s : State) : State := (useEntry headerRef s).1

/-- Every entry that is not marked passes its check: no damage is there that has not been found. -/
def DamageFound (s : State) : Prop := ∀ r, s.marked r = false → s.passes r = true

/-! ### What commit validation finds, entry by entry (R18) -/

/-- What the check of storey `k` finds (R11). -/
def storeyFailure (im : Image) (k : Nat) : Option Failure :=
  let e := im.storeys.get k
  let fails (r : Reason) : Option Failure := some { entry := storeyRef k, reason := r }
  if im.header.storeyCount ≤ k then if e.count ≠ 0 then fails .range else none
  else if e.count = 0 then none
  else if 127 < e.first + e.count - 1 then fails .range
  else
    match (List.range k).reverse.find? fun j => decide ((im.storeys.get j).count ≠ 0) with
    | none => none
    | some j =>
      let below := im.storeys.get j
      if e.first < below.first then fails .order
      else if e.first ≤ below.first + below.count - 1 then fails .overlap
      else none

/-- What the check of Zone Record `z` finds (R12). -/
def zoneFailure (im : Image) (z : Nat) : Option Failure :=
  if (im.zones.get z).high < (im.zones.get z).low then some { entry := zoneRef z, reason := .order } else none

/-- What the check of Detection Map entry `d` finds (R13). -/
def detectionFailure (im : Image) (d : Nat) : Option Failure :=
  if (im.detections.get d).mapped = true ∧ im.header.storeyCount ≤ (im.detections.get d).storey then
    some { entry := detectionRef d, reason := .range }
  else none

/-- The step that a walk from `first` reaches after `n` moves along the next steps, where the chain is that long (R22). -/
def chainStep (steps : Tab StepRecord 256) (first : Nat) : Nat → Option Nat
  | 0 => some first
  | n + 1 => (chainStep steps first n).bind fun k => (steps.get k).next

/-- What the checks at the step reached after `n` moves find, `n` below 32 (R22). -/
def chainFailure (steps : Tab StepRecord 256) (first n : Nat) : Option Failure :=
  match chainStep steps first n with
  | none => none
  | some k =>
    let fails (r : Reason) : Option Failure := some { entry := stepRef k, reason := r }
    if 1 ≤ n ∧ (chainStep steps first (n - 1)).any (fun j => decide ((steps.get k).delay < (steps.get j).delay)) = true then
      fails .delayOrder
    else
      match (steps.get k).next with
      | none => none
      | some next =>
        if (List.range (n + 1)).any fun m => decide (chainStep steps first m = some next) then fails .chainLoop
        else if n = 31 then fails .chainLength
        else none

/-- What the walk of plan `p` finds: the first failure along its chain (R22). -/
def planFailure (im : Image) (p : Nat) : Option Failure :=
  (im.plans.get p).bind fun first => (List.range 32).findSome? (chainFailure im.steps first)

/-- What the check of position `i` of the Station Authority Table finds (R16). -/
def authorityFailure (im : Image) (i : Nat) : Option Failure :=
  (im.authorities.get i).bind fun e =>
    let fails (r : Reason) : Option Failure := some { entry := authorityRef i, reason := r }
    if (List.range i).any fun j => (im.authorities.get j).isNone then fails .order
    else if i = 0 then none
    else
      (im.authorities.get (i - 1)).bind fun before =>
        if e.station = before.station then fails .duplicate
        else if e.station < before.station then fails .order
        else none

/-! ### What a step, a due check, plan entry and a tick do to an incident's record (R19 to R32, R51, R57 to R60)

Whether an entry is sound is read from one state throughout: a use marks an entry that is not sound and leaves every other as it
is, so the entries that are sound stay the same in a whole event of the Incident Engine. -/

/-- An incident that has met a plan fault (R24, R26). -/
def Incident.faulted (i : Incident) : Incident := { i with planFault := true, nextStep := none }

/-- The range of step `k` for the incident (R27 to R30). -/
def Incident.rangeOf (s : State) (k : Nat) (i : Incident) : StepRange :=
  stepRange s.tables.fields.header.storeyCount i.origin (s.tables.fields.steps.get k)

/-- The storeys whose zones step `k` raises: those of its range before the first whose entry is not sound, none where the step
record or the header is not sound (R24 to R26). -/
def Incident.storeysRead (s : State) (k : Nat) (i : Incident) : List Nat :=
  if Sound s (stepRef k) ∧ Sound s headerRef then
    (i.rangeOf s k).storeys.takeWhile fun storey => decide (Sound s (storeyRef storey))
  else []

/-- Step `k` can be applied whole: every entry it reads is sound (R25). -/
def Incident.appliesWhole (s : State) (k : Nat) (i : Incident) : Bool :=
  decide (Sound s (stepRef k) ∧ Sound s headerRef) &&
    (i.rangeOf s k).storeys.all fun storey => decide (Sound s (storeyRef storey))

/-- The incident after the application of step `k`: the zones of the storeys read are raised, and then the step stands in the
last-step record, or the incident has met a plan fault (R25, R26, R31, R32). -/
def Incident.withStep (s : State) (k : Nat) (i : Incident) : Incident :=
  let e := s.tables.fields.steps.get k
  let r := i.rangeOf s k
  let raised : Incident := { i with
    demand := i.demand.mapIdx fun z d =>
      if (i.storeysRead s k).any fun storey => decide (z ∈ (s.tables.fields.storeys.get storey).zones) then
        d.max e.kind.demand
      else d }
  if i.appliesWhole s k = true then
    { raised with
      nextStep := e.next
      lastStep := some { step := k, range := r.range, clipped := r.clipped, unplaced := r.unplaced } }
  else raised.faulted

/-- The incident after a due check of at most `n` steps (R59, log 16): a next step whose record is not sound is a plan fault
(R24, R60). -/
def Incident.dueSteps (s : State) : Nat → Incident → Incident
  | 0, i => i
  | n + 1, i =>
    match i.nextStep with
    | none => i
    | some k =>
      if ¬Sound s (stepRef k) then i.faulted
      else if i.elapsed < (s.tables.fields.steps.get k).delay then i
      else Incident.dueSteps s n (i.withStep s k)

/-- The incident after it has entered its plan: a directory entry that is not sound is a plan fault (R19, R23, R24). -/
def Incident.entered (s : State) (i : Incident) : Incident :=
  if Sound s (planRef i.plan) then Incident.dueSteps s 256 { i with nextStep := s.tables.fields.plans.get i.plan }
  else i.faulted

/-- The incident after one tick, none where it expires (R51, R52, R57, R58). -/
def Incident.ticked (s : State) (i : Incident) : Option Incident :=
  match i.state with
  | .confirming deadline => if deadline ≤ 1 then none else some { i with state := .confirming (deadline - 1) }
  | .active => some (Incident.dueSteps s 256 { i with elapsed := min (i.elapsed + 1) 65535 })
  | .held => some i

/-- GENERAL once a plan fault has been met, or not (R60, R70). -/
def generalAfter (s : State) (fault : Prop) [Decidable fault] : Option GeneralCause :=
  if fault then some (s.engine.general.getD .planFault) else s.engine.general

/-! ### What a frame event counts (R89, R93, R106) -/

/-- The state once FRAME_EVENT has counted the frame and lowered the claims' timers by 1, before anything that has run out
acts. -/
def frameCounted (s : State) : State :=
  { s with
    timer := { s.timer with
      frameCount := if 15999 ≤ s.timer.frameCount then 0 else s.timer.frameCount + 1
      seconds := if 15999 ≤ s.timer.frameCount then (s.timer.seconds + 1) % 4294967296 else s.timer.seconds
      divider := s.timer.divider - 1 }
    arbiter := { s.arbiter with
      claims := s.arbiter.claims.mapIdx fun _ c => c.map fun c =>
        { c with state := match c.state with
          | .confirming number timer => .confirming number (timer - 1)
          | .waiting timer => .waiting (timer - 1)
          | other => other } } }

/-- The timer of the claim in slot `k` has not run out. -/
def TimerRuns (s : State) (k : Nat) : Prop :=
  ∀ c, s.arbiter.claims.get k = some c → (∀ number, c.state ≠ .confirming number 0) ∧ c.state ≠ .waiting 0

/-- The notifications of several notices handed over in order (R173). -/
def noticesTaken (ns : List Notice) (u : FaultUnit) : FaultUnit := ns.foldl (fun v n => v.take n) u

/-! ### Stamps renumbered, and the test of the PENDING claims (R84, R88) -/

/-- How many claims hold a stamp of a kind that is not above `n`: the stamp that renumbering makes of `n`. -/
def Arbiter.placeOf (stamp : Claim → Option Nat) (n : Nat) (a : Arbiter) : Nat :=
  ((List.range 16).filter fun k => ((a.claims.get k).bind stamp).any fun m => decide (m ≤ n)).length

/-- How many claims hold a stamp of a kind. -/
def Arbiter.countOf (stamp : Claim → Option Nat) (a : Arbiter) : Nat :=
  ((List.range 16).filter fun k => ((a.claims.get k).bind stamp).isSome).length

/-- The CONFIRM REQUEST of confirm number `number` for the claim in slot `slot` (R89). -/
def Claim.confirmRequest (slot number : Nat) (c : Claim) : ConfirmRequest :=
  { station := c.station, slot := slot, level := c.level, channel := c.channel, number := number }

/-- The claim passes the would-win test against the candidates of `t` (R88). -/
def Wins (t : State) (d : Claim) : Prop :=
  ∃ z < 128, selects t d.selection z = true ∧ eligible d.level (t.arbiter.masks.get z) = true ∧ (winner t z).2 < d.level

/-- The event that leads from `s` to `t` ends with the test of every PENDING claim (R88): one that passes is CONFIRMING with its
request queued, one that fails is PENDING still, and the requests are queued in the order of the arrival stamps. -/
structure PendingTested (s t : State) : Prop where
  fails : ∀ j < 16, ∀ d, s.arbiter.claims.get j = some d → d.state = .pending → ¬Wins t d →
    (t.arbiter.claims.get j).map Claim.state = some .pending
  passes : ∀ j < 16, ∀ d, s.arbiter.claims.get j = some d → d.state = .pending → Wins t d →
    ∃ number, (t.arbiter.claims.get j).map Claim.state =
        some (.confirming number (16 * headerValue Header.confirmTimeout s)) ∧
      d.confirmRequest j number ∈ t.router.confirms
  inOrder : StampLaw s.arbiter → ∀ j < 16, ∀ k < 16, ∀ c d, s.arbiter.claims.get j = some c →
    s.arbiter.claims.get k = some d → c.state = .pending → d.state = .pending → Wins t c → Wins t d →
    c.arrival < d.arrival → ∃ before between after m n,
      t.router.confirms = before ++ c.confirmRequest j m :: between ++ d.confirmRequest k n :: after

/-- An on-air stamp has been given: the counter has moved as R84 says, and every claim beside `slot` holds the on-air stamp
that this leaves it. -/
structure StampGiven (slot : Nat) (s t : State) : Prop where
  counter : t.arbiter.onAirCounter = s.arbiter.nextOnAir.onAirCounter
  others : ∀ j < 16, j ≠ slot →
    (t.arbiter.claims.get j).bind Claim.onAirStamp = (s.arbiter.nextOnAir.claims.get j).bind Claim.onAirStamp

/-! ### How the statements speak of a command -/

/-- Command `c` brings the blocks from `s` to `t`, and from there the Supervision Sequencer takes what the Zone Arbiter
has sent it (log 3). -/
def Leaves (c : Instr) (s t : State) : Prop := exec c s = .next (drain drainFuel t)

/-- The part as it stands once the authority of the station that sent a request or claim has been looked up (R16). -/
def lookedUp (q : Sender) (s : State) : State := (authorityOf q.station s).1

/-- `s` with one answer more at the end of the response queue, to the sender `q` (R152). -/
def answered (q : Sender) (body : AnswerBody) (s : State) : State :=
  s.onRouter fun r => { r with places := r.places ++ [.filled (answerTo q r.address body)] }

/-- A request or claim from `q` has a response place, and its station meets the requirement `need` (R17, R152). -/
structure Entitled (q : Sender) (need : Authority) (s : State) : Prop where
  place : s.router.places.length < 8
  hand : HandLaw s.router
  authority : need.meets (authorityOf q.station s).2 = true

/-- A request or claim from `q` reaches its owner: the part is bound too (R155). -/
structure Heard (q : Sender) (need : Authority) (s : State) : Prop extends Entitled q need s where
  bound : s.router.address ≠ 0

/-- The answer to `q` stands in the response queue. -/
def AnswerQueued (q : Sender) (body : AnswerBody) (s : State) : Prop :=
  ∃ source, Place.filled (answerTo q source body) ∈ s.router.places

/-- The sender, the request type (file 10), the requirement (R17) and the data of a refusal (R182) of each known
request. -/
def requestOf : Instr → Option (Sender × Nat × Authority × List Byte)
  | .bind q _ _ => some (q, 1, .configure, [])
  | .status q => some (q, 2, .monitor, [])
  | .readEntry q _ _ _ => some (q, 3, .monitor, [])
  | .readLine q _ _ _ => some (q, 4, .monitor, [])
  | .readState q _ _ _ => some (q, 5, .monitor, [])
  | .find q _ _ _ _ => some (q, 6, .monitor, [])
  | .editBegin q => some (q, 7, .configure, [])
  | .writeEntry q _ _ _ => some (q, 8, .configure, [])
  | .writeLine q _ _ _ => some (q, 9, .configure, [])
  | .editCommit q => some (q, 10, .configure, [])
  | .editCancel q => some (q, 11, .configure, [])
  | .setMask q _ _ _ => some (q, 12, .operate, [])
  | .setTrim q _ _ _ => some (q, 13, .operate, [])
  | .hold q id => some (q, 14, .operate, [byte id])
  | .resume q id => some (q, 15, .operate, [byte id])
  | .advance q id => some (q, 16, .operate, [byte id])
  | .resetIncident q id => some (q, 17, .operate, [byte id])
  | .evacuateAll q => some (q, 18, .operate, [])
  | .resetAll q => some (q, 19, .operate, [])
  | .sweep q _ => some (q, 20, .operate, [])
  | .enableNotices q => some (q, 21, .operate, [])
  | .disableNotices q => some (q, 22, .operate, [])
  | .restart q => some (q, 23, .configure, [])
  | _ => none

/-- What it is to set GENERAL with a cause, where the notifications of the event start from the Fault Unit `u` (R44, R70):
the cause, every zone EVACUATE with its timer cancelled and its plan claim handed over, the edit broken, and with sound
tables the GENERAL and EDIT_ENDED notifications; no incident is touched. -/
structure GeneralSet (cause : GeneralCause) (u : FaultUnit) (s t : State) : Prop where
  general : t.engine.general = some cause
  incidents : t.engine.incidents = s.engine.incidents
  idCounter : t.engine.idCounter = s.engine.idCounter
  demand : ∀ z < 128, t.engine.demand.get z = .evacuate
  allClear : ∀ z < 128, s.engine.demand.get z ≠ .evacuate → t.engine.allClear.get z = 0
  planClaims : ∀ z < 128, s.engine.planClaim z ≠ some .evacuate → t.arbiter.planClaims.get z = some .evacuate
  edit : t.tables.edit = none
  fields : t.tables.fields = s.tables.fields
  timer : t.timer = s.timer
  sPort : t.sPort = s.sPort
  zPort : t.zPort = s.zPort
  notices : SoundTables s → t.faultUnit =
    if s.tables.edit.isSome then FaultUnit.take (.editEnded .broken) (FaultUnit.take (.general true cause) u)
    else FaultUnit.take (.general true cause) u

/-! ### What a command leaves as it was -/

/-- What the Zone Arbiter, the Supervision Sequencer and the use of entries leave as it was: the timer, the ports, the
Incident Engine, the stored tables with the edit, the Cell Router but for its confirm requests, channel presence with
the sample stores, the notifications-enabled flag and the queue of commands; a CORRUPT mark once set stays set (R8), and
only an entry that fails its check is newly marked (R6). -/
structure Beside (s t : State) : Prop where
  timer : t.timer = s.timer
  sPort : t.sPort = s.sPort
  zPort : t.zPort = s.zPort
  engine : t.engine = s.engine
  pending : t.pending = s.pending
  fields : t.tables.fields = s.tables.fields
  coded : t.tables.coded = s.tables.coded
  codeFlips : t.tables.codeFlips = s.tables.codeFlips
  edit : t.tables.edit = s.tables.edit
  router : { t.router with confirms := s.router.confirms } = s.router
  presence : t.crosspoint.presence = s.crosspoint.presence
  runs : t.crosspoint.runs = s.crosspoint.runs
  samples : t.crosspoint.samples = s.crosspoint.samples
  enabled : t.faultUnit.enabled = s.faultUnit.enabled
  marks : ∀ r, s.marked r = true → t.marked r = true
  marksOnly : ∀ r, t.marked r = true → s.marked r = true ∨ s.passes r = false

end Sys2Proof.Machine
end

