-- ==== Sys2Proof/Certificates/Slice0/Obligations.lean ====
section
/-! DEFINITION. The statements for the provers. `Leaves c s t` says that the blocks stand at `t` after command `c`, the
Sequencer taking its messages from there (log 3); `t` and `u` are always states after the command. -/

section

open Sys2Proof Sys2Proof.Machine

/-! ### The queue, reset and the laws of the state -/

/-- A step takes the command at the front of the queue, with the queue's rest left; on an empty queue the part idles
(log 1). -/
def Obligations.StepTakesTheFrontCommand : Prop :=
  (∀ (c : Instr) (rest : List Instr) (s : State),
    step { s with pending := c :: rest } = exec c { s with pending := rest }) ∧
  ∀ s : State, s.pending = [] → step s = .next s

/-- Every command, well-formed or not, answers a next state in every state, and leaves the waiting commands alone: the
queue is the model's own (log 1), and POWER_ON_RESET keeps it (log 25). -/
def Obligations.EveryCommandAnswersNext : Prop :=
  ∀ (c : Instr) (s : State), ∃ t, exec c s = .next t ∧ t.pending = s.pending

/-- POWER_ON_RESET brings every block to its power-on values and keeps the waiting commands (log 25). -/
def Obligations.PowerOnResetValues : Prop :=
  ∀ s : State, ∃ t, exec .powerOnReset s = .next t ∧ t.pending = s.pending ∧
    t.timer.frameCount = 0 ∧ t.timer.seconds = 0 ∧ t.timer.divider = 32000 ∧
    t.sPort.link = .down ∧ t.sPort.goodRun = 0 ∧ t.sPort.failedRun = 0 ∧ t.sPort.established = false ∧
    t.sPort.lastNumber = 0 ∧ t.sPort.inboundCount = 0 ∧ t.sPort.partialCell = [] ∧
    t.zPort.link = .down ∧ t.zPort.goodRun = 0 ∧ t.zPort.failedRun = 0 ∧ t.zPort.established = false ∧
    t.zPort.lastNumber = 0 ∧ t.zPort.partialCell = [] ∧ (∀ z < 128, t.zPort.reports.get z = none) ∧
    t.router.address = 0 ∧ t.router.destination = none ∧ t.router.sToZ = [] ∧ t.router.zToS = [] ∧
    t.router.places = [] ∧ t.router.confirms = [] ∧ t.router.sSending = [] ∧ t.router.zSending = [] ∧
    t.tables.fields = .powerOn ∧ (∀ r, t.passes r = true ∧ t.marked r = false) ∧ t.tables.edit = none ∧
    t.engine.incidents = [] ∧ t.engine.general = none ∧ t.engine.idCounter = 1 ∧
    (∀ z < 128, t.engine.demand.get z = .none ∧ t.engine.allClear.get z = 0) ∧
    (∀ k < 16, t.arbiter.claims.get k = none) ∧ t.arbiter.arrivalCounter = 0 ∧ t.arbiter.onAirCounter = 0 ∧
    t.arbiter.confirmCounter = 0 ∧ t.arbiter.reserved = none ∧
    (∀ z < 128, t.arbiter.masks.get z = 0 ∧ t.arbiter.planClaims.get z = none ∧ t.arbiter.holders.get z = .none) ∧
    (∀ c < 32, t.crosspoint.presence.get c = .absent ∧ t.crosspoint.runs.get c = 0 ∧ t.crosspoint.samples.get c = 0) ∧
    (∀ z < 128, t.crosspoint.trims.get z = 0 ∧ t.crosspoint.records.get z = .none) ∧
    t.sequencer.step = .idle ∧ t.sequencer.pointer = 0 ∧ t.sequencer.scrubPointer = 0 ∧ t.sequencer.latch = false ∧
    t.sequencer.overdue = 0 ∧ t.sequencer.reportsAvailable = false ∧
    (∀ z < 128, t.sequencer.zones.get z = { last := .notTested, failures := 0, counted := none, normals := 0 }) ∧
    t.faultUnit.list = [] ∧ t.faultUnit.overflow = false ∧ t.faultUnit.queue = [] ∧ t.faultUnit.enabled = false ∧
    t.faultUnit.overrun = false ∧ t.faultUnit.sequence = 0

/-- Every law below holds in the reset state. -/
def Obligations.LawsHoldAtReset : Prop :=
  FaultUnitLaw State.reset.faultUnit ∧ DemandLaw State.reset.engine ∧ EditLaw State.reset ∧
  ChannelLaw State.reset.arbiter ∧ (∀ z < 128, HolderLaw State.reset z ∧ RecordLaw State.reset z) ∧
  CountLaw State.reset.arbiter ∧ StampLaw State.reset.arbiter ∧
  ZoneLaw State.reset ∧ RouterLaw State.reset.router ∧ HandLaw State.reset.router ∧
  OwedLaw State.reset.sequencer ∧ IncidentLaw State.reset.engine ∧ PlanClaimLaw State.reset

/-- Every step keeps the laws of the Fault List and of the notification queue. -/
def Obligations.FaultUnitLawKept : Prop :=
  ∀ s t : State, FaultUnitLaw s.faultUnit → step s = .next t → FaultUnitLaw t.faultUnit

/-- Every step keeps each zone's demand the one formed from GENERAL and the incidents, and all-clear timers off wherever
there is demand. -/
def Obligations.DemandLawKept : Prop :=
  ∀ s t : State, DemandLaw s.engine → step s = .next t → DemandLaw t.engine

/-- Every step keeps three laws of exclusion: no edit is OPEN or VALIDATING while an incident is listed or GENERAL is set,
no source channel belongs to two claims, and no two claims hold one stamp, none of the stamps passing its counter. -/
def Obligations.EditAndChannelLawsKept : Prop :=
  (∀ s t : State, EditLaw s → step s = .next t → EditLaw t) ∧
  (∀ s t : State, ChannelLaw s.arbiter → step s = .next t → ChannelLaw t.arbiter) ∧
  ∀ s t : State, StampLaw s.arbiter → step s = .next t → StampLaw t.arbiter

/-- Every step keeps every zone's holder the winner of R100, or NONE under a reservation that no winner of level 3 or more
meets; and with that, every zone's holder record in the Crosspoint the record of its holder. -/
def Obligations.HolderLawKept : Prop :=
  (∀ s t : State, (∀ z < 128, HolderLaw s z) → step s = .next t → ∀ z < 128, HolderLaw t z) ∧
  ∀ s t : State, (∀ z < 128, HolderLaw s z) → (∀ z < 128, RecordLaw s z) → step s = .next t →
    ∀ z < 128, RecordLaw t z

/-- Every step keeps each claim's zones-held count equal to the number of zones its slot holds, where the holders are the
winners and the step zone is a zone. -/
def Obligations.HolderCountsKept : Prop :=
  ∀ s t : State, (∀ z < 128, HolderLaw s z) → ZoneLaw s → CountLaw s.arbiter → step s = .next t →
    CountLaw t.arbiter

/-- Every step keeps the pointers, the step zone and the reserved zone in range, and leaves no owed step waiting in
IDLE. -/
def Obligations.SequencerLawsKept : Prop :=
  (∀ s t : State, ZoneLaw s → step s = .next t → ZoneLaw t) ∧
  ∀ s t : State, OwedLaw s.sequencer → step s = .next t → OwedLaw t.sequencer

/-- Every step keeps the Cell Router's queues within their capacities, with one confirm request a slot, and leaves no
response place waiting for a command. -/
def Obligations.RouterLawKept : Prop :=
  ∀ s t : State, RouterLaw s.router → HandLaw s.router → step s = .next t → RouterLaw t.router ∧ HandLaw t.router

/-- Every step keeps the laws of the Incident List: its size, its ids, its origin storeys and its DZ lists. -/
def Obligations.IncidentLawKept : Prop :=
  ∀ s t : State, IncidentLaw s.engine → step s = .next t → IncidentLaw t.engine

/-- Every command but a bare hand-over keeps the arbiter's plan claims equal to those the demand and the timers give. -/
def Obligations.PlanClaimsFollowDemand : Prop :=
  ∀ (c : Instr) (s t : State), (∀ changes, c ≠ .planClaimHandover changes) → PlanClaimLaw s → exec c s = .next t →
    PlanClaimLaw t

/-! ### Messages, entries and encodings -/

/-- The Sequencer takes the messages of one event in the order they were sent, after the event; with none it does
nothing, so that a command that leaves none answers exactly the state it leaves (log 3). -/
def Obligations.SequencerTakesItsMail : Prop :=
  (∀ (c : Instr) (s t : State), Leaves c s t → t.mail = [] → exec c s = .next t) ∧
  (∀ (n : Nat) (s : State), s.mail = [] → drain n s = s) ∧
  (∀ (n : Nat) (m : SequencerMail) (rest : List SequencerMail) (s : State), s.mail = m :: rest →
    drain (n + 1) s = drain n (takeMail m { s with mail := rest })) ∧
  ∀ (n : Nat) (s : State), Beside s (drain n s)

/-- The use of an entry: a marked entry is not handed over and TABLE_CORRUPT is asked for again; an unmarked one is
checked, and handed over or marked. A header that is not handed over gives its power-on timings. -/
def Obligations.UseOfAnEntry : Prop :=
  ∀ (r : EntryRef) (s : State),
    (s.marked r = true → useEntry r s = (addFault (.tableCorrupt r) s, false)) ∧
    (s.marked r = false → s.passes r = true → useEntry r s = (s, true)) ∧
    (s.marked r = false → s.passes r = false →
      useEntry r s = (addFault (.tableCorrupt r) (s.setMark r), false) ∧
      ∀ q, (useEntry r s).1.marked q = (decide (q = r) || s.marked q)) ∧
    (s.passes r = true →
      s.storedCode r = Config.checkCode (tableNumber r.table) (entryImage (s.tables.fields.entry r))) ∧
    ∀ f : Header → Nat, (readTiming f s).2 = headerValue f s

/-- Every entry that an image holds is read back from the image the part sends of it, for all nine tables; every cell the
part makes has 64 bytes, its header bytes and a good CRC, and its four segments carry it whole; every frame passes its
check; a cell taken is read by its type, event, answer or request type as file 10 lays it out, but that the byte order of
a group set, high byte first with bit g for group g, is deduced (log 24). -/
def Obligations.EncodingsAgree : Prop :=
  (∀ (t : TableName) (contents : List Byte) (e : Entry), readEntry t contents = some e →
     (entryImage e).length = 12 ∧ readEntry t (entryImage e) = some e) ∧
  (∀ (destination source type tag : Nat) (payload : List Byte), destination ≤ 255 → source ≤ 255 → type ≤ 255 →
    tag ≤ 255 →
    let c := makeCell destination source type tag payload
    c.length = 64 ∧ cellGood c = true ∧ byteAt c 0 = destination ∧ byteAt c 1 = source ∧ byteAt c 2 = type ∧
      byteAt c 3 = tag ∧ (segmentsOf c).flatMap Segment.bytes = c) ∧
  (∀ covered : List Byte, frameGood covered.length ((frameOf covered).drop 2) = true) ∧
  ∀ c : List Byte,
    let q : Sender := { station := byteAt c 1, tag := byteAt c 3 }
    let reads (type sub : Nat) (at' : Nat) (i : Instr) : Prop :=
      byteAt c 2 = type → byteAt c at' = sub → readCell c = some i
    let dz := wordAt c 4
    (dz ≤ 511 → reads 1 1 6 (.fire dz) ∧ reads 1 2 6 (.restore dz) ∧ reads 1 3 6 (.dfault dz) ∧
      reads 1 4 6 (.dfaultClear dz)) ∧
    (byteAt c 2 = 1 → 511 < dz ∨ byteAt c 6 = 0 ∨ 4 < byteAt c 6 →
      readCell c = some (.detectDiscard dz (byteAt c 6))) ∧
    reads 2 0 6 (.claim q (byteAt c 4) (byteAt c 5) (.span (byteAt c 7) (byteAt c 8))) ∧
    reads 2 1 6 (.claim q (byteAt c 4) (byteAt c 5) (.groups (BitVec.ofNat 16 (wordAt c 7)))) ∧
    (byteAt c 2 = 2 → 1 < byteAt c 6 →
      readCell c = some (.claim q (byteAt c 4) (byteAt c 5) (.unknown (byteAt c 6)))) ∧
    (byteAt c 2 = 3 → readCell c = some (.release q.station (byteAt c 4))) ∧
    reads 4 1 5 (.answerReady q.station (byteAt c 4) q.tag) ∧
    reads 4 2 5 (.answerDefault q.station (byteAt c 4) q.tag) ∧
    reads 4 3 5 (.answerWithdraw q.station (byteAt c 4) q.tag) ∧
    reads 4 4 5 (.answerWait q.station (byteAt c 4) q.tag) ∧
    (byteAt c 2 = 4 → byteAt c 5 = 0 ∨ 4 < byteAt c 5 → readCell c = none) ∧
    (byteAt c 2 = 0 ∨ 5 < byteAt c 2 → readCell c = none) ∧
    reads 5 1 4 (.bind q (byteAt c 5) (byteAt c 6)) ∧ reads 5 2 4 (.status q) ∧
    reads 5 3 4 (.readEntry q (byteAt c 5) (wordAt c 6) (byteAt c 8)) ∧
    reads 5 4 4 (.readLine q (byteAt c 5) (wordAt c 6) (byteAt c 8)) ∧
    reads 5 5 4 (.readState q (byteAt c 5) (byteAt c 6) (wordAt c 7)) ∧
    reads 5 6 4 (.find q (byteAt c 5) (byteAt c 6) (byteAt c 7) (BitVec.ofNat 8 (byteAt c 8))) ∧
    reads 5 7 4 (.editBegin q) ∧ reads 5 8 4 (.writeEntry q (byteAt c 5) (wordAt c 6) ((c.drop 8).take 12)) ∧
    reads 5 9 4 (.writeLine q (byteAt c 5) (wordAt c 6) ((c.drop 8).take 48)) ∧ reads 5 10 4 (.editCommit q) ∧
    reads 5 11 4 (.editCancel q) ∧ reads 5 12 4 (.setMask q (byteAt c 5) (byteAt c 6) (byteAt c 7)) ∧
    reads 5 13 4 (.setTrim q (byteAt c 5) (byteAt c 6) (byteAt c 7)) ∧ reads 5 14 4 (.hold q (byteAt c 5)) ∧
    reads 5 15 4 (.resume q (byteAt c 5)) ∧ reads 5 16 4 (.advance q (byteAt c 5)) ∧
    reads 5 17 4 (.resetIncident q (byteAt c 5)) ∧ reads 5 18 4 (.evacuateAll q) ∧ reads 5 19 4 (.resetAll q) ∧
    reads 5 20 4 (.sweep q (byteAt c 5)) ∧ reads 5 21 4 (.enableNotices q) ∧ reads 5 22 4 (.disableNotices q) ∧
    reads 5 23 4 (.restart q) ∧
    (byteAt c 2 = 5 → byteAt c 4 = 0 ∨ 23 < byteAt c 4 → readCell c = some (.unknownRequest q (byteAt c 4)))

/-! ### The frame timer and the ports -/

/-- FRAME_EVENT moves the three counts of the timer, and with no timer about to run out and no tick due it does nothing
else but lower the claims' timers: settling periods and building and sending frames are commands of their own (log 5). A
frame count of 15,999 gives the incident tick and a divider at its end the supervision tick, the divider reloaded first;
the 32nd frame event of a validation ends it; a claim's timer that runs out drops the claim or asks again (log 4, log
27). FRAME_START goes from DOWN or ISLAND to HUNT with both runs 0, does nothing in HUNT, and in UP gives a frame event
where the timer awaits its phase and where it is locked and the start lies in the window (log 11). -/
def Obligations.FrameEventsAndStarts : Prop :=
  ((∀ s : State, ∃ t, exec .frameEvent s = .next t ∧
     t.timer.frameCount = (if 15999 ≤ s.timer.frameCount then 0 else s.timer.frameCount + 1) ∧
     t.timer.seconds =
       (if 15999 ≤ s.timer.frameCount then (s.timer.seconds + 1) % 4294967296 else s.timer.seconds) ∧
     t.timer.divider =
       (if s.timer.divider ≤ 1 then 1600 * headerValue Header.tickInterval s else s.timer.divider - 1) ∧
     t.timer.lock = s.timer.lock ∧ t.sPort = s.sPort ∧ t.zPort = s.zPort ∧
     t.crosspoint.presence = s.crosspoint.presence ∧ t.crosspoint.samples = s.crosspoint.samples ∧
     t.tables.fields = s.tables.fields) ∧
   ∀ s : State, s.timer.frameCount < 15999 → 2 ≤ s.timer.divider →
     (∀ e n, s.tables.edit = some e → e.phase ≠ .validating n) →
     (∀ k < 16, ∀ c, s.arbiter.claims.get k = some c →
       (∀ number timer, c.state = .confirming number timer → 2 ≤ timer) ∧ ∀ timer, c.state = .waiting timer → 2 ≤ timer) →
     ∃ t, Leaves .frameEvent s t ∧
       t = { s with
         timer := { s.timer with frameCount := s.timer.frameCount + 1, divider := s.timer.divider - 1 }
         arbiter := { s.arbiter with claims := t.arbiter.claims } } ∧
       ∀ k < 16, t.arbiter.claims.get k =
         (s.arbiter.claims.get k).map fun c =>
           { c with state := match c.state with
             | .confirming number timer => .confirming number (timer - 1)
             | .waiting timer => .waiting (timer - 1)
             | other => other }) ∧
  (∀ s : State,
     let v := frameCounted s
     let reloaded := 1600 * headerValue Header.tickInterval s
     let unvalidated := ∀ e n, s.tables.edit = some e → e.phase ≠ .validating n
     let asked : Option ClaimState → Prop := fun c =>
       ∃ number, c = some (.confirming number (16 * headerValue Header.confirmTimeout s))
     ((∀ k < 16, TimerRuns v k) →
       (unvalidated → 15999 ≤ s.timer.frameCount → 2 ≤ s.timer.divider →
         ∃ t, exec .frameEvent s = .next t ∧ exec .incidentTick v = .next t) ∧
       (unvalidated → s.timer.frameCount < 15999 → s.timer.divider ≤ 1 → s.mail = [] →
         ∃ t, exec .frameEvent s = .next t ∧
           exec .supervisionTick { headerUsed v with timer := { v.timer with divider := reloaded } } = .next t) ∧
       ∀ e n, s.tables.edit = some e → e.phase = .validating n → s.timer.frameCount < 15999 → 2 ≤ s.timer.divider →
         let w := { v with tables := { v.tables with edit := some { e with phase := .validating (n - 1) } } }
         (2 ≤ n → Leaves .frameEvent s w) ∧
         (n ≤ 1 → ∃ t, exec .validationEnd w = .next t ∧ Leaves .frameEvent s t)) ∧
     (unvalidated → s.timer.frameCount < 15999 → 2 ≤ s.timer.divider →
       (∀ k < 16, (∀ j < 16, j ≠ k → TimerRuns v j) → ∀ c, v.arbiter.claims.get k = some c →
         (∀ number, c.state = .confirming number 0 →
           ∃ t, exec .frameEvent s = .next t ∧ exec (.confirmTimeout k) v = .next t) ∧
         (c.state = .waiting 0 → ∃ t, exec .frameEvent s = .next t ∧ exec (.retryIntervalEnd k) v = .next t)) ∧
       ∃ t, Leaves .frameEvent s t ∧
         (∀ k < 16, ∀ c, v.arbiter.claims.get k = some c →
           (∀ number, c.state = .confirming number 0 → t.arbiter.claims.get k = none) ∧
           (c.state = .waiting 0 → asked ((t.arbiter.claims.get k).map Claim.state))) ∧
         (SoundTables s → t.faultUnit = noticesTaken
           ((List.range 16).filterMap fun k => (v.arbiter.claims.get k).bind fun c =>
             match c.state with
             | .confirming _ 0 => some (.claimDropped k c.station .noAnswer)
             | _ => none) s.faultUnit))) ∧
  ∀ (w : Bool) (s : State),
    (s.sPort.link = .down ∨ s.sPort.link = .island →
      Leaves (.frameStart w) s { s with sPort := { s.sPort with link := .hunt, goodRun := 0, failedRun := 0 } }) ∧
    (s.sPort.link = .hunt → Leaves (.frameStart w) s s) ∧
    (s.sPort.link = .up → s.timer.lock = .locked → w = false → Leaves (.frameStart w) s s) ∧
    (s.sPort.link = .up → s.timer.lock = .locked → w = true →
      ∃ t, exec (.frameStart w) s = .next t ∧ exec .frameEvent s = .next t) ∧
    (s.sPort.link = .up → s.timer.lock = .awaitingPhase →
      ∃ t, exec (.frameStart w) s = .next t ∧
        exec .frameEvent { s with timer := { s.timer with lock := .locked } } = .next t)

/-- S_PERIOD_SETTLE outside UP counts good periods and moves the two runs of HUNT, which at their ends go on as
S_LINK_UP and HUNT_FAILED do: entry to UP, and the return to DOWN or ISLAND; these have no effect where their run has
not reached its end (log 6). -/
def Obligations.SPeriodsSettleOutsideUp : Prop :=
  (∀ (s : State) (received : Option (List Byte)),
     let counted (l : List Byte) : SPort :=
       { s.sPort with inboundCount := (s.sPort.inboundCount + 1) % 65536, lastNumber := byteAt l 0 }
     (s.sPort.link = .down ∨ s.sPort.link = .island →
       (∀ l, received = some l → sFrameGood l = true → Leaves (.sPeriodSettle received) s { s with sPort := counted l }) ∧
       ((∀ l, received = some l → sFrameGood l = false) → Leaves (.sPeriodSettle received) s s)) ∧
     (s.sPort.link = .hunt →
       (∀ l, received = some l → sFrameGood l = true →
         let u := { s with sPort := { counted l with goodRun := s.sPort.goodRun + 1, failedRun := 0 } }
         (s.sPort.goodRun < 15 → Leaves (.sPeriodSettle received) s u) ∧
         (15 ≤ s.sPort.goodRun → ∀ t, exec .sLinkUp u = .next t → Leaves (.sPeriodSettle received) s t)) ∧
       (∀ l, received = some l → sFrameGood l = false →
         Leaves (.sPeriodSettle received) s { s with sPort := { s.sPort with goodRun := 0, failedRun := 0 } }) ∧
       (received = none →
         let u := { s with sPort := { s.sPort with goodRun := 0, failedRun := s.sPort.failedRun + 1 } }
         (s.sPort.failedRun < 3 → Leaves (.sPeriodSettle received) s u) ∧
         (3 ≤ s.sPort.failedRun → ∀ t, exec .huntFailed u = .next t → Leaves (.sPeriodSettle received) s t)))) ∧
  ∀ s : State,
    (s.sPort.link = .hunt → 16 ≤ s.sPort.goodRun →
      exec .sLinkUp s = .next
        { s with
          sPort := { s.sPort with link := .up, established := true, goodRun := 0, failedRun := 0 }
          timer := { s.timer with lock := .awaitingPhase }
          crosspoint := { s.crosspoint with presence := .const .absent, runs := .const 0 }
          faultUnit := s.faultUnit.remove .sLink s.timer.seconds }) ∧
    (s.sPort.link ≠ .hunt ∨ s.sPort.goodRun < 16 → exec .sLinkUp s = .next s) ∧
    (s.sPort.link = .hunt → 4 ≤ s.sPort.failedRun →
      exec .huntFailed s = .next
        { s with sPort := { s.sPort with link := if s.sPort.established then .island else .down } }) ∧
    (s.sPort.link ≠ .hunt ∨ s.sPort.failedRun < 4 → exec .huntFailed s = .next s)

/-- S_PERIOD_SETTLE in UP: a good period stores every channel's sample, moves every run counter and changes the presence
of a channel whose run reaches 64, and then (log 37) gives its segment to reassembly, whose cell, its CRC being good, is
taken, forwarded or both as R149 says (in that order, log 3); a bad or missed one silences every channel, breaks the
cell and raises the failed-period run, which at 4 goes on as S_LINK_ISLAND does. -/
def Obligations.SPeriodsSettleInUp : Prop :=
  (∀ (s : State) (received : Option (List Byte)), s.sPort.link = .up →
    (∀ l, received = some l → sFrameGood l = true →
      let seen : SPort := { s.sPort with
        failedRun := 0, inboundCount := (s.sPort.inboundCount + 1) % 65536, lastNumber := byteAt l 0 }
      let rebuilt := rebuild (segmentAt l 69)
        (if byteAt l 0 = (s.sPort.lastNumber + 1) % 256 then s.sPort.partialCell else [])
      let a := takeSlots l { s with sPort := seen }
      let v : State := { drain drainFuel a with sPort := { seen with partialCell := rebuilt.1 } }
      let turns (c : Nat) : Prop := bitAt l 65 c ≠ decide (s.crosspoint.presence.get c = .present)
      let full (c : Nat) : Prop := 64 ≤ s.crosspoint.runs.get c + 1
      (∃ t, exec (.sPeriodSettle received) s = .next t ∧
        (∀ c < 32, t.crosspoint.samples.get c = frameSample l c ∧
          (¬turns c → t.crosspoint.runs.get c = 0 ∧ t.crosspoint.presence.get c = s.crosspoint.presence.get c) ∧
          (turns c → ¬full c → t.crosspoint.runs.get c = s.crosspoint.runs.get c + 1 ∧
            t.crosspoint.presence.get c = s.crosspoint.presence.get c) ∧
          (turns c → full c → t.crosspoint.runs.get c = 0 ∧ t.crosspoint.presence.get c =
            if s.crosspoint.presence.get c = .present then .lost else .present)) ∧
        t.timer = s.timer ∧ t.zPort = s.zPort ∧ t.sPort = { seen with partialCell := rebuilt.1 }) ∧
      (∀ c < 32, turns c → full c →
        (s.crosspoint.presence.get c = .present →
          (∀ k < 16, ∀ d, a.arbiter.claims.get k = some d → d.channel ≠ c) ∧
          (SoundTables s → FaultUnitLaw s.faultUnit →
            a.listed (.sourceLost c) = true ∨ a.faultUnit.overflow = true)) ∧
        (s.crosspoint.presence.get c = .lost → a.listed (.sourceLost c) = false)) ∧
      ((∀ c < 32, turns c → ¬full c) → a.faultUnit = s.faultUnit ∧ a.arbiter = s.arbiter ∧ a.mail = s.mail) ∧
      (rebuilt.2 = none → Leaves (.sPeriodSettle received) s v) ∧
      (∀ cell, rebuilt.2 = some cell → cellGood cell = false → Leaves (.sPeriodSettle received) s v) ∧
      (∀ cell, rebuilt.2 = some cell → cellGood cell = true →
        Leaves (.sPeriodSettle received) s (deliverCell cell v))) ∧
    ((∀ l, received = some l → sFrameGood l = false) →
      let u := { s with
        sPort := { s.sPort with failedRun := s.sPort.failedRun + 1, partialCell := [] }
        crosspoint := { s.crosspoint with samples := .const 0 } }
      (s.sPort.failedRun < 3 → Leaves (.sPeriodSettle received) s u) ∧
      (3 ≤ s.sPort.failedRun →
        ∃ t, exec (.sPeriodSettle received) s = .next t ∧ exec .sLinkIsland u = .next t))) ∧
  (∀ (g : Segment) (held : List Byte),
    (g.marker = true → rebuild g held = (g.bytes, none)) ∧
    (g.marker = false → held = [] → rebuild g held = ([], none)) ∧
    (g.marker = false → held ≠ [] → rebuild g held =
      if (held ++ g.bytes).length < 64 then (held ++ g.bytes, none) else ([], some (held ++ g.bytes)))) ∧
  ∀ (cell : List Byte) (v : State),
    let destination := byteAt cell 0
    let detect := byteAt cell 2 = 1
    let station := 1 ≤ byteAt cell 1 ∧ byteAt cell 1 ≤ 254
    let bindOrStatus := byteAt cell 2 = 5 ∧ (byteAt cell 4 = 1 ∨ byteAt cell 4 = 2)
    let forwarded (x : State) : State :=
      if x.router.sToZ.length < 8 then { x with router := { x.router with sToZ := x.router.sToZ ++ [cell] } } else x
    (destination ≠ 255 → destination ≠ v.router.address → deliverCell cell v = forwarded v) ∧
    (destination ≠ 255 → destination = v.router.address →
      (∀ i, readCell cell = some i → detect ∨ station → v.mail = [] → Leaves i v (deliverCell cell v)) ∧
      (readCell cell = none ∨ ¬detect ∧ ¬station → deliverCell cell v = v)) ∧
    (destination = 255 →
      (∀ i, readCell cell = some i → detect ∨ bindOrStatus ∧ station → v.mail = [] →
        ∃ w, Leaves i v w ∧ deliverCell cell v = forwarded w) ∧
      (¬detect → ¬(bindOrStatus ∧ station) → deliverCell cell v = forwarded v))

/-- S_LINK_ISLAND: the hand-overs of the entry to ISLAND: the port, the free timer, the Cell Router's emptied queues,
every channel LOST and silent, and every claim dropped; no effect where the run has not reached 4 (log 6). -/
def Obligations.SLinkIslandHandsOver : Prop :=
  ∀ s : State,
    (s.sPort.link = .up → 4 ≤ s.sPort.failedRun → ∃ t, Leaves .sLinkIsland s t ∧
      t.sPort = { s.sPort with link := .island, established := true, partialCell := [] } ∧
      t.timer = { s.timer with lock := .free } ∧
      t.router = { s.router with zToS := [], places := [], confirms := [], sSending := [] } ∧
      (∀ c < 32, t.crosspoint.presence.get c = .lost ∧ t.crosspoint.runs.get c = 0 ∧ t.crosspoint.samples.get c = 0) ∧
      (∀ k < 16, t.arbiter.claims.get k = none) ∧
      ((∀ z < 128, HolderLaw s z) → ∀ z < 128, ∀ k, t.arbiter.holders.get z ≠ .slot k) ∧
      (SoundTables s → FaultUnitLaw s.faultUnit →
        (∀ c < 32, s.crosspoint.presence.get c = .lost → t.listed (.sourceLost c) = false) ∧
        (t.listed .sLink = true ∨ t.faultUnit.overflow = true)) ∧
      t.engine = s.engine ∧ t.zPort = s.zPort ∧ t.tables.edit = s.tables.edit) ∧
    (s.sPort.link ≠ .up ∨ s.sPort.failedRun < 4 → Leaves .sLinkIsland s s)

/-- S_OUTBOUND_FRAME sends the number of R112 and the next segment of the cell being sent, idle where there is none or
the S-link is not UP. RETURN_CELL_FORWARD and CELL_FORWARD_S_TO_Z put a good cell at the end of its queue, or discard it
where the queue holds 8, the S-link is not UP (return cells) or it is for the part alone (inbound cells). -/
def Obligations.CellLanes : Prop :=
  (∀ s : State,
     let lane := if s.sPort.link = .up then s.router.sSending else []
     let segment := lane.head?.getD { marker := false, bytes := List.replicate 16 0 }
     exec .sOutboundFrame s = .next
       { s with
         router := { s.router with sSending := lane.tail }
         sPort := { s.sPort with
           sent := some ([0xB5, 0xC3] ++ withCrc
             (byte ((s.timer.seconds * 16000 + s.timer.frameCount) % 256) :: byte (flag segment.marker) ::
               segment.bytes)) } }) ∧
  ∀ (cell : List Byte) (s : State), cellGood cell = true →
    (s.sPort.link = .up → s.router.zToS.length < 8 →
      exec (.returnCellForward cell) s = .next { s with router := { s.router with zToS := s.router.zToS ++ [cell] } }) ∧
    (s.sPort.link ≠ .up ∨ 8 ≤ s.router.zToS.length → exec (.returnCellForward cell) s = .next s) ∧
    (byteAt cell 0 = 255 ∨ byteAt cell 0 ≠ s.router.address → s.router.sToZ.length < 8 →
      exec (.cellForwardSToZ cell) s = .next { s with router := { s.router with sToZ := s.router.sToZ ++ [cell] } }) ∧
    (byteAt cell 0 ≠ 255 ∧ byteAt cell 0 = s.router.address ∨ 8 ≤ s.router.sToZ.length →
      exec (.cellForwardSToZ cell) s = .next s)

/-- Z_FRAME_BUILD with no install waiting (where one waits, InstallReplacesTheImage says that it comes first) and no
damage that is not found yet: the frame sent has 310 bytes with a good check; each zone slot carries silence under mute,
the claim's channel, or the plan's channel or tone (the tone where the zone's record or the translation entry is
marked), attenuated by the zone's trim, and the pilot request of the reserved zone; its segment bytes are those of the
cell being sent, idle where there is none, and the cell lane moves on. The gain of a trim is the whole number nearest to
65,536 times 10 to the power of minus t over 20, the product is rounded toward zero, and every tone keeps within its
peak, ALERT silent in odd seconds. -/
def Obligations.ZFrameSlots : Prop :=
  (∀ t < 32,
    (2 * trimGain t - 1) ^ 20 * 10 ^ t < 131072 ^ 20 ∧ 131072 ^ 20 < (2 * trimGain t + 1) ^ 20 * 10 ^ t) ∧
  (∀ (t : Nat) (v : Sample), t < 32 → (attenuate t v).toInt = Int.tdiv (v.toInt * trimGain t) 65536) ∧
  (∀ (kind : PlanKind) (f : FrameTimer), -8192 ≤ (tone kind f).toInt ∧ (tone kind f).toInt ≤ 8192 ∧
    (kind = .alert → f.seconds % 2 = 1 → tone kind f = 0)) ∧
  ∀ s : State, DamageFound s → (∀ e, s.tables.edit = some e → e.phase ≠ .passed) →
    RouterLaw s.router →
    ∃ t l, Leaves .zFrameBuild s t ∧ t.zPort = { s.zPort with sent := some l } ∧ l.length = 310 ∧
      frameGood 306 (l.drop 2) = true ∧ byteAt l 2 = (s.timer.seconds * 16000 + s.timer.frameCount) % 256 ∧
      (∀ z < 128,
        bitAt l 259 z = decide (s.crosspoint.records.get z = .none) ∧
        bitAt l 275 z = decide (s.arbiter.reserved = some z) ∧
        ∀ v : Sample,
          (match s.crosspoint.records.get z with
            | .none => v = 0
            | .slot _ c => v = s.crosspoint.samples.get c
            | .plan kind =>
              let index := 3 * (s.tables.fields.zones.get z).group + planKindCode kind
              v =
                if s.marked (zoneRef z) = true ∨ s.marked (translationRef index) = true then tone kind s.timer
                else
                  match s.tables.fields.translations.get index with
                  | some c =>
                    if s.crosspoint.presence.get c = .present then s.crosspoint.samples.get c else tone kind s.timer
                  | none => tone kind s.timer) →
          wordAt l (3 + 2 * z) = (attenuate (s.crosspoint.trims.get z) v).toNat) ∧
      (s.router.zSending = [] → ∀ c rest, s.router.sToZ = c :: rest →
        t.router = { s.router with sToZ := rest, zSending := (segmentsOf c).tail } ∧
        byteAt l 291 = 1 ∧ (l.drop 292).take 16 = c.take 16) ∧
      (s.router.zSending = [] → s.router.sToZ = [] →
        t.router = s.router ∧ byteAt l 291 = 0 ∧ (l.drop 292).take 16 = List.replicate 16 0) ∧
      (∀ g rest, s.router.zSending = g :: rest →
        t.router = { s.router with zSending := rest } ∧
        byteAt l 291 = flag g.marker ∧ (l.drop 292).take 16 = g.bytes) ∧
      t = { s with zPort := t.zPort, router := t.router, faultUnit := t.faultUnit } ∧
      (SoundTables s → t.faultUnit = s.faultUnit) ∧
      ∀ z < 128, ∀ kind, s.crosspoint.records.get z = .plan kind → s.marked (zoneRef z) = true →
        t.listed (.tableCorrupt (zoneRef z)) = true ∨ t.faultUnit.overflow = true

/-- Z_PERIOD_SETTLE in both states of the Z-link, with Z_LINK_UP and Z_LINK_DOWN as the two moments: in UP a good period
replaces every zone's report, gives its segment to the rebuilding of the return cell, and forwards a completed cell
whose CRC is good toward the S-port while the S-link is UP and the queue has room, before the Sequencer is told of the
arrival (log 26); entry to UP and to DOWN tell the Fault Unit and the Sequencer. -/
def Obligations.ZPeriodsSettle : Prop :=
  ∀ (s : State) (received : Option (List Byte)),
    let bad := ∀ l, received = some l → frameGood 274 l = false
    (s.zPort.link = .down →
      (∀ l, received = some l → frameGood 274 l = true →
        let u := { s with zPort := { s.zPort with goodRun := s.zPort.goodRun + 1, lastNumber := byteAt l 0 } }
        (s.zPort.goodRun < 15 → Leaves (.zPeriodSettle received) s u) ∧
        (15 ≤ s.zPort.goodRun → ∀ t, exec .zLinkUp u = .next t → Leaves (.zPeriodSettle received) s t)) ∧
      (bad → Leaves (.zPeriodSettle received) s { s with zPort := { s.zPort with goodRun := 0 } })) ∧
    (s.zPort.link = .up →
      (∀ l, received = some l → frameGood 274 l = true → ∃ t, exec (.zPeriodSettle received) s = .next t ∧
        t.zPort.link = .up ∧ t.zPort.failedRun = 0 ∧ t.zPort.lastNumber = byteAt l 0 ∧
        t.sPort = s.sPort ∧ t.timer = s.timer ∧
        (let rebuilt := rebuild (segmentAt l 257)
           (if byteAt l 0 = (s.zPort.lastNumber + 1) % 256 then s.zPort.partialCell else [])
         let zToS := match rebuilt.2 with
           | some cell =>
             if cellGood cell = true ∧ s.sPort.link = .up ∧ s.router.zToS.length < 8 then s.router.zToS ++ [cell]
             else s.router.zToS
           | none => s.router.zToS
         t.zPort.partialCell = rebuilt.1 ∧ t.router.zToS = zToS ∧
         exec .returnFrameArrival { s with zPort := t.zPort, router := { s.router with zToS := zToS } } = .next t) ∧
        ∀ z < 128, t.zPort.reports.get z = some
          { valid := (byteAt l (2 + 2 * z)).testBit 0, load := byteAt l (1 + 2 * z)
            earth := (byteAt l (2 + 2 * z)).testBit 1, ampFailed := (byteAt l (2 + 2 * z)).testBit 2 }) ∧
      (bad →
        let u := { s with zPort := { s.zPort with failedRun := s.zPort.failedRun + 1, partialCell := [] } }
        (s.zPort.failedRun < 3 → Leaves (.zPeriodSettle received) s u) ∧
        (3 ≤ s.zPort.failedRun →
          ∃ t, exec (.zPeriodSettle received) s = .next t ∧ exec .zLinkDown u = .next t))) ∧
    (s.zPort.link = .down → 16 ≤ s.zPort.goodRun →
      exec .zLinkUp s = .next
        { s with
          zPort := { s.zPort with link := .up, goodRun := 0, established := true }
          faultUnit := s.faultUnit.remove .zLink s.timer.seconds
          sequencer := { s.sequencer with reportsAvailable := true } }) ∧
    (s.zPort.link ≠ .down ∨ s.zPort.goodRun < 16 → exec .zLinkUp s = .next s) ∧
    (s.zPort.link = .up → 4 ≤ s.zPort.failedRun →
      let u := { s with
        zPort := { s.zPort with link := .down, failedRun := 0, partialCell := [], reports := .const none }
        faultUnit := s.faultUnit.add .zLink s.timer.seconds }
      (∃ t, exec .zLinkDown s = .next t ∧ exec .reportsAbsent u = .next t) ∧
      (s.sequencer.step.pilotZone = none →
        Leaves .zLinkDown s { u with sequencer := { s.sequencer with reportsAvailable := false } })) ∧
    (s.zPort.link ≠ .up ∨ s.zPort.failedRun < 4 → Leaves .zLinkDown s s)

/-! ### The Cell Router -/

/-- TRANSMITTER_CHOICE: the order of the four sources; confirm requests that are not current are removed unsent; a
response place that waits holds back the responses behind it; a notification that leaves the queue empty under the
overrun flag is followed by an OVERRUN. -/
def Obligations.TransmitterChoosesInOrder : Prop :=
  ∀ s : State,
    (s.sPort.link ≠ .up ∨ s.router.sSending ≠ [] → exec .transmitterChoice s = .next s) ∧
    (s.sPort.link = .up → s.router.sSending = [] →
      (∀ stale c rest, s.router.confirms = stale ++ c :: rest → (∀ d ∈ stale, confirmCurrent s d = false) →
        confirmCurrent s c = true →
        exec .transmitterChoice s = .next
          { s with router := { s.router with
            confirms := rest, sSending := segmentsOf (confirmCell s.router.address c) } }) ∧
      ((∀ d ∈ s.router.confirms, confirmCurrent s d = false) →
        (∀ a rest, s.router.places = .filled a :: rest →
          exec .transmitterChoice s = .next
            { s with router := { s.router with
              confirms := [], places := rest, sSending := segmentsOf (answerCell a) } }) ∧
        ((∀ a rest, s.router.places ≠ .filled a :: rest) →
          (∀ c rest, s.router.zToS = c :: rest →
            exec .transmitterChoice s = .next
              { s with router := { s.router with confirms := [], zToS := rest, sSending := segmentsOf c } }) ∧
          (s.router.zToS = [] → s.faultUnit.queue = [] →
            exec .transmitterChoice s = .next { s with router := { s.router with confirms := [] } }) ∧
          (∀ n rest, s.router.zToS = [] → s.faultUnit.queue = n :: rest →
            exec .transmitterChoice s = .next
              { s with
                router := { s.router with
                  confirms := []
                  sSending := segmentsOf (noticeCell (s.router.destination.getD 0) s.router.address n) }
                faultUnit :=
                  if rest = [] ∧ s.faultUnit.overrun = true then
                    { s.faultUnit with
                      queue := [{ number := (s.faultUnit.sequence + 1) % 256, notice := .overrun }]
                      sequence := (s.faultUnit.sequence + 1) % 256, overrun := false }
                  else { s.faultUnit with queue := rest } }))))

/-- Every management request is refused in the same order: discarded where no place is free, DENIED below its
requirement, NOT_BOUND by an unbound part but for BIND and STATUS; an unknown type is answered UNKNOWN_REQUEST without a
lookup. The lookup gives CONFIGURE while every stored position is VACANT and none is marked, which is how the model
takes the table to be empty (log 13), else the entry's authority, and none where a VACANT position comes first or no
position of a full table matches. -/
def Obligations.RequestsRefusedInOrder : Prop :=
  ((∀ (c : Instr) (q : Sender) (type : Nat) (need : Authority) (data : List Byte) (s : State),
     requestOf c = some (q, type, need, data) →
       (8 ≤ s.router.places.length → Leaves c s s) ∧
       (s.router.places.length < 8 → HandLaw s.router → need.meets (authorityOf q.station s).2 = false →
         Leaves c s (answered q (.response type .denied data) (lookedUp q s))) ∧
       (Entitled q need s → s.router.address = 0 → type ≠ 1 → type ≠ 2 →
         Leaves c s (answered q (.response type .notBound data) (lookedUp q s)))) ∧
   ∀ (q : Sender) (type : Nat) (s : State), type = 0 ∨ 23 < type →
     (8 ≤ s.router.places.length → exec (.unknownRequest q type) s = .next s) ∧
     (s.router.places.length < 8 → HandLaw s.router →
       exec (.unknownRequest q type) s = .next (answered q (.response type .unknownRequest []) s))) ∧
  (∀ (a : Nat) (s : State), (∀ i < 32, s.tables.fields.authorities.get i = none) →
    (∀ r ∈ s.tables.marks, r.table ≠ .authority) → authorityOf a s = (s, some .configure)) ∧
  (∀ (a i : Nat) (s : State), SoundTables s → i < 32 →
    (∀ j < i, ∃ e, s.tables.fields.authorities.get j = some e ∧ e.station ≠ a) →
    (∀ level, s.tables.fields.authorities.get i = some { station := a, authority := level } →
      authorityOf a s = (s, some level)) ∧
    (s.tables.fields.authorities.get i = none → 0 < i → authorityOf a s = (s, none))) ∧
  (∀ (a : Nat) (s : State), SoundTables s →
    (∀ i < 32, ∃ e, s.tables.fields.authorities.get i = some e ∧ e.station ≠ a) → authorityOf a s = (s, none)) ∧
  (∀ (a : Nat) (s : State), (∀ i < 32, s.marked (authorityRef i) = true) → (authorityOf a s).2 = none) ∧
  ∀ need found : Authority,
    need.meets none = false ∧
    (need.meets (some found) = false ↔
      (need = .operate ∧ found = .monitor) ∨ (need = .configure ∧ found ≠ .configure))

/-- BIND answers ALREADY_BOUND or BAD_VALUE, or takes the binding and answers from the new address. ENABLE NOTICES sets
the flag and hands over a SNAPSHOT; DISABLE NOTICES clears the flag, the queue and the overrun flag. -/
def Obligations.BindingAndNotices : Prop :=
  (∀ (q : Sender) (address destination : Nat) (s : State), Entitled q .configure s →
     let u := lookedUp q s
     let valid := 1 ≤ address ∧ address ≤ 254 ∧ 1 ≤ destination ∧ destination ≤ 254
     (s.router.address ≠ 0 →
       Leaves (.bind q address destination) s (answered q (.response 1 .alreadyBound []) u)) ∧
     (s.router.address = 0 → ¬valid →
       Leaves (.bind q address destination) s (answered q (.response 1 .badValue []) u)) ∧
     (s.router.address = 0 → valid →
       Leaves (.bind q address destination) s
         (answered q (.response 1 .ok [])
           { u with router := { u.router with address := address, destination := some destination } }))) ∧
  ∀ (q : Sender) (s : State), Heard q .operate s →
    let u := lookedUp q s
    Leaves (.enableNotices q) s
      (answered q (.response 21 .ok [])
        { u with
          faultUnit :=
            FaultUnit.take (.snapshot u.faultUnit.list.length s.engine.incidents.length s.engine.general)
              { u.faultUnit with enabled := true } }) ∧
    Leaves (.disableNotices q) s
      (answered q (.response 22 .ok [])
        { u with faultUnit := { u.faultUnit with enabled := false, queue := [], overrun := false } })

/-- STATUS, READ ENTRY, READ LINE and READ STATE are answered from the state and change nothing but what the authority
lookup leaves: the 36 bytes of STATUS, its own response place counted among the reserved ones (log 34); the entry or the
line of four in wrap order, with marks, of the image in effect or staging; the record of each kind, byte by byte (log
23, log 24); and each refusal in its order. -/
def Obligations.ReadsAnswerTheState : Prop :=
  ∀ (q : Sender) (s : State), Entitled q .monitor s →
    let u := lookedUp q s
    let places (p : Place → Bool) : Nat := (s.router.places.filter p).length
    let claims (p : ClaimState → Bool) : Nat :=
      ((List.range 16).filter fun k => (s.arbiter.claims.get k).any fun c => p c.state).length
    let status : List Byte :=
      [byte s.router.address, byte (s.router.destination.getD 0), byte s.router.sToZ.length, byte s.router.zToS.length,
        byte (places fun p => match p with | .filled _ => true | _ => false), byte s.router.confirms.length,
        byte (places (fun p => match p with | .reserved _ _ => true | _ => false) + 1)] ++
      bytes4 s.timer.seconds ++ [byte (sLinkCode s.sPort.link)] ++ bytes2 s.sPort.inboundCount ++
      [byte (zLinkCode s.zPort.link)] ++
      (match s.tables.edit with
        | none => [0, 0, 0]
        | some e => [if e.phase = .opened then 1 else 2, byte e.owner, byte e.lease]) ++
      [byte s.engine.incidents.length, if s.engine.general = none then 0 else 1, byte (causeCode s.engine.general),
        byte (claims fun c => match c with | .pending => true | _ => false),
        byte (claims fun c => match c with | .confirming _ _ => true | _ => false),
        byte (claims fun c => match c with | .waiting _ => true | _ => false),
        byte (claims fun c => match c with | .onAir _ => true | _ => false)] ++
      (match s.sequencer.step with
        | .idle => [0, 255]
        | .deferred z _ => [1, byte z]
        | .pilot z => [2, byte z]
        | .settle z _ => [3, byte z]
        | .sample z _ => [4, byte z]) ++
      [byte s.sequencer.pointer, byte (flag s.sequencer.latch), byte s.sequencer.overdue, byte s.sequencer.scrubPointer,
        byte u.faultUnit.list.length, byte (flag u.faultUnit.overflow), byte (flag u.faultUnit.enabled),
        byte u.faultUnit.queue.length, byte (flag u.faultUnit.overrun)]
    (Leaves (.status q) s (answered q (.response 2 .ok status) u) ∧ status.length = 36) ∧
    (s.router.address ≠ 0 →
      (∀ table index image : Nat,
        let one (st : Status) (data : List Byte) : Prop :=
          Leaves (.readEntry q table index image) s (answered q (.response 3 st data) u)
        let four (st : Status) (data : List Byte) : Prop :=
          Leaves (.readLine q table index image) s (answered q (.response 4 st data) u)
        let both (st : Status) : Prop := one st [] ∧ four st []
        let head : List Byte := [byte table] ++ bytes2 index ++ [byte image]
        (9 ≤ table → both .badTable) ∧
        ∀ t, tableOfNumber table = some t →
          let line : List Nat :=
            [index, index / 4 * 4 + (index + 1) % 4, index / 4 * 4 + (index + 2) % 4, index / 4 * 4 + (index + 3) % 4]
          let oneOf (held : Image) (mark : Nat → Nat) : List Byte :=
            head ++ [byte (mark index)] ++ entryImage (held.entry { table := t, index := index })
          let fourOf (held : Image) (mark : Nat → Nat) : List Byte :=
            head ++ line.map (fun i => byte (if tableEntries t ≤ i then 2 else mark i)) ++
              line.flatMap fun i =>
                if tableEntries t ≤ i then List.replicate 12 0 else entryImage (held.entry { table := t, index := i })
          let mark (i : Nat) : Nat := if u.marked { table := t, index := i } then 1 else 0
          (tableEntries t ≤ index → both .badIndex) ∧
          (index < tableEntries t →
            (image = 0 → one .ok (oneOf s.tables.fields mark) ∧ four .ok (fourOf s.tables.fields mark)) ∧
            (image = 1 → s.tables.edit = none → both .noEdit) ∧
            (image = 1 → ∀ e, s.tables.edit = some e →
              one .ok (oneOf e.staging fun _ => 0) ∧ four .ok (fourOf e.staging fun _ => 0)) ∧
            (2 ≤ image → both .badValue))) ∧
      ∀ kind form number : Nat,
        let read (st : Status) (data : List Byte) : Prop :=
          Leaves (.readState q kind form number) s (answered q (.response 5 st data) u)
        let is (record : List Byte) : Prop := read .ok ([byte kind, byte form] ++ bytes2 number ++ record)
        (kind = 0 ∨ 6 < kind → read .badValue []) ∧
        (kind = 1 ∨ kind = 2 →
          (2 ≤ form → read .badValue []) ∧
          (form = 0 → number = 0 ∨ 255 < number → read .badIndex []) ∧
          (form = 1 → 7 < number → read .badIndex []) ∧
          (form = 0 → 1 ≤ number → number ≤ 255 → (∀ i ∈ s.engine.incidents, i.id ≠ number) → read .notFound []) ∧
          (form = 1 → number ≤ 7 → s.engine.incidents.length ≤ number → read .notFound []) ∧
          ∀ p i, s.incident p = some i →
            form = 1 ∧ p = number ∧ number ≤ 7 ∨
              form = 0 ∧ i.id = number ∧ 1 ≤ number ∧ number ≤ 255 ∧ (∀ x < p, ∀ j, s.incident x = some j → j.id ≠ number) →
            let next : List Byte := match i.nextStep with
              | none => [255, 255]
              | some k => bytes2 k
            let last : List Byte := match i.lastStep with
              | none => [0, 0, 0, 0, 0, 0]
              | some l =>
                [1, byte l.step] ++ (match l.range with | none => [255, 255] | some r => [byte r.1, byte r.2]) ++
                  [byte l.clipped, byte l.unplaced]
            (kind = 1 → is
              ([byte i.id, match i.state with | .confirming _ => 1 | .active => 2 | .held => 3, byte i.origin,
                  byte i.plan, byte i.dzList.length] ++
                padTo 12 (i.dzList.flatMap fun e =>
                  bytes2 e.1 ++ [match e.2 with | .inAlarm => 0 | .restored => 1]) ++
                [byte i.further] ++ bytes2 (match i.state with | .confirming deadline => deadline | _ => 0) ++
                bytes2 i.elapsed ++ next ++ last ++
                [byte (flag i.planFault)])) ∧
            (kind = 2 → is
              (packBits 16 (fun z => decide (i.demand.get z = .alert) || decide (i.demand.get z = .evacuate)) ++
                packBits 16 fun z => decide (i.demand.get z = .evacuate)))) ∧
        (kind = 3 →
          (15 < number → read .badIndex []) ∧
          (number ≤ 15 → s.arbiter.claims.get number = none → is (List.replicate 17 0)) ∧
          ∀ c, number ≤ 15 → s.arbiter.claims.get number = some c →
            let held (code stamp confirm timer : Nat) : Prop := is
              ([1, byte c.station, byte c.channel, byte c.level] ++
                (match c.selection with
                  | .span first count => [0, byte first, byte count]
                  | .groups set => 1 :: bytes2 set.toNat) ++
                [byte code] ++ bytes2 c.arrival ++ bytes2 stamp ++ [byte c.waitCount, byte confirm] ++ bytes2 timer ++
                [byte c.zonesHeld])
            (c.state = .pending → held 1 0 0 0) ∧
            (∀ n timer, c.state = .confirming n timer → held 2 0 n (timer / 16)) ∧
            (∀ timer, c.state = .waiting timer → held 3 0 0 (timer / 16)) ∧
            ∀ stamp, c.state = .onAir stamp → held 4 stamp 0 0) ∧
        (kind = 4 →
          (127 < number → read .badIndex []) ∧
          (number ≤ 127 →
            let e := s.tables.fields.zones.get number
            let r := s.sequencer.zones.get number
            let planned : List Byte := match s.arbiter.planClaims.get number with
              | none => [0, 0]
              | some .alert => [4, 0]
              | some .evacuate => [5, 1]
              | some .allClear => [3, 2]
            let report : List Byte := match s.zPort.reports.get number with
              | none => [0, 0, 0]
              | some p => [1, byte p.load, byte (flag p.valid + 2 * flag p.earth + 4 * flag p.ampFailed)]
            is
              ([match s.arbiter.holders.get number with | .slot k => byte k | .plan => 254 | .none => 255] ++ planned ++
                [byte (s.arbiter.masks.get number), byte e.baseMask,
                  if s.arbiter.reserved = some number then 1 else 0, byte (demandCode (s.engine.demand.get number))] ++
                bytes2 (s.engine.allClear.get number) ++ [byte (s.crosspoint.trims.get number), byte e.baseTrim] ++
                report ++
                [byte (resultCode r.last), byte r.failures,
                  match r.counted with | none => 255 | some k => byte (failCode k), byte r.normals]))) ∧
        (kind = 5 →
          (31 < number → read .badIndex []) ∧
          (number ≤ 31 →
            is [byte (presenceCode (s.crosspoint.presence.get number)), byte (s.crosspoint.runs.get number)])) ∧
        (kind = 6 →
          (10 < number → read .badIndex []) ∧
          (number ≤ 10 →
            is (byte u.faultUnit.list.length ::
              ((u.faultUnit.list.drop (6 * number)).take 6).flatMap fun e => faultBytes e.fault ++ bytes4 e.stamp))))

/-- FIND: DENIED below MONITOR; else the span from the first zone of the given sense, the empty span past the end where
there is none, BAD_VALUE for a span or a sense out of range. -/
def Obligations.FindAnswersTheSpan : Prop :=
  (∀ (q : Sender) (first count sense : Nat) (results : BitVec 8) (s : State), s.router.places.length < 8 →
    HandLaw s.router → Authority.monitor.meets (authorityOf q.station s).2 = false →
    Leaves (.find q first count sense results) s (answered q (.response 6 .denied []) (lookedUp q s))) ∧
  ∀ (q : Sender) (first count sense : Nat) (results : BitVec 8) (s : State), Heard q .monitor s →
    let u := lookedUp q s
    let hit (z : Nat) : Prop := results.getLsbD (resultCode (s.sequencer.zones.get z).last) = decide (sense = 0)
    let answer (status : Status) (data : List Byte) : Prop :=
      Leaves (.find q first count sense results) s (answered q (.response 6 status data) u)
    (128 < first + count ∨ 1 < sense → answer .badValue []) ∧
    (first + count ≤ 128 → sense ≤ 1 →
      (∀ z, first ≤ z → z < first + count → hit z → (∀ y, first ≤ y → y < z → ¬hit y) →
        answer .ok [byte z, byte (first + count - z)]) ∧
      ((∀ z, first ≤ z → z < first + count → ¬hit z) → answer .ok [byte (first + count), 0]))

/-! ### The Fault Unit -/

/-- ADD_FAULT (R170) changes nothing for a listed fault, appends an unlisted one with the seconds count and hands over
FAULT_ADDED, and at 64 entries sets the overflow flag alone. REMOVE_FAULT (R171) takes a listed fault out, clearing the
overflow flag where that leaves the list empty (R172), and hands over FAULT_REMOVED. QUEUE_NOTIFICATION (R173, R174)
discards while disabled, appends with the next number while fewer than 32 wait, else sets the overrun flag alone. -/
def Obligations.FaultUnitTakesRequests : Prop :=
  (∀ (f : FaultId) (s : State),
     let listed := ∃ e ∈ s.faultUnit.list, e.fault = f
     (listed → exec (.addFault f) s = .next s) ∧
     (¬listed → s.faultUnit.list.length < 64 →
       exec (.addFault f) s = .next
         { s with
           faultUnit := FaultUnit.take (.faultAdded f s.timer.seconds)
             { s.faultUnit with list := s.faultUnit.list ++ [{ fault := f, stamp := s.timer.seconds }] } }) ∧
     (¬listed → 64 ≤ s.faultUnit.list.length →
       exec (.addFault f) s = .next { s with faultUnit := { s.faultUnit with overflow := true } })) ∧
  (∀ (f : FaultId) (s : State),
     let listed := ∃ e ∈ s.faultUnit.list, e.fault = f
     let rest := s.faultUnit.list.filter fun e => decide (e.fault ≠ f)
     (listed →
       exec (.removeFault f) s = .next
         { s with
           faultUnit := FaultUnit.take (.faultRemoved f s.timer.seconds)
             { s.faultUnit with
               list := rest, overflow := if rest = [] then false else s.faultUnit.overflow } }) ∧
     (¬listed → exec (.removeFault f) s = .next s)) ∧
  ∀ (n : Notice) (s : State),
    exec (.queueNotification n) s = .next { s with faultUnit := FaultUnit.take n s.faultUnit } ∧
    (s.faultUnit.enabled = false → exec (.queueNotification n) s = .next s) ∧
    (s.faultUnit.enabled = true → s.faultUnit.queue.length < 32 →
      exec (.queueNotification n) s = .next
        { s with faultUnit :=
          { s.faultUnit with
            queue := s.faultUnit.queue ++ [{ number := (s.faultUnit.sequence + 1) % 256, notice := n }]
            sequence := (s.faultUnit.sequence + 1) % 256 } }) ∧
    (s.faultUnit.enabled = true → 32 ≤ s.faultUnit.queue.length →
      exec (.queueNotification n) s = .next { s with faultUnit := { s.faultUnit with overrun := true } })

/-! ### Detection events, incidents and plans -/

/-- FIRE on a detection zone that is UNMAPPED or whose entry is not sound, or that overflows the Incident List, asks for
GENERAL; where GENERAL is set already, the entry's use and the overflow's notification are all; a zone above 511 is
discarded. -/
def Obligations.FireSetsGeneral : Prop :=
  ∀ (d : Nat) (s : State),
    let r := detectionRef d
    let e := s.tables.fields.detections.get d
    (511 < d → Leaves (.fire d) s s) ∧
    (d ≤ 511 → ¬Sound s r ∨ e.mapped = false →
      (s.engine.general = none → ∃ t, Leaves (.fire d) s t ∧ GeneralSet .unmapped s.faultUnit s t) ∧
      (s.engine.general ≠ none → Leaves (.fire d) s (useEntry r s).1)) ∧
    (d ≤ 511 → Sound s r → e.mapped = true → (∀ i ∈ s.engine.incidents, i.origin ≠ e.storey) →
      8 ≤ s.engine.incidents.length →
      let v := FaultUnit.take (.incidentOverflow d) s.faultUnit
      (s.engine.general = none → ∃ t, Leaves (.fire d) s t ∧ GeneralSet .overflow v s t) ∧
      (s.engine.general ≠ none → Leaves (.fire d) s { s with faultUnit := v }))

/-- FIRE on a mapped detection zone with no incident of its storey appends an incident at the end of the list,
CONFIRMING or ACTIVE, moves the id counter past its id, breaks an open edit and queues the INCIDENT notification,
EDIT_ENDED before it (log 20). An ACTIVE one enters its plan at once: its next step is read from the Plan Directory and
the steps of delay 0 are applied (at most 256, log 16), and a directory entry or an entry of a step that is not sound
gives a plan fault, with GENERAL for it; pre-alert that cannot be read gives GENERAL and raises no zone. -/
def Obligations.FireCreatesAnIncident : Prop :=
  ∀ (d : Nat) (s : State), d ≤ 511 → Sound s (detectionRef d) →
    let e := s.tables.fields.detections.get d
    let readable := Sound s headerRef ∧ Sound s (storeyRef e.storey)
    e.mapped = true → (∀ i ∈ s.engine.incidents, i.origin ≠ e.storey) → s.engine.incidents.length < 8 →
    ∃ t i, Leaves (.fire d) s t ∧ t.engine.incidents = s.engine.incidents ++ [i] ∧
      i.origin = e.storey ∧ i.plan = e.plan ∧ i.dzList = [(d, .inAlarm)] ∧ i.further = 0 ∧ i.elapsed = 0 ∧
      ((∀ j ∈ s.engine.incidents, j.id ≠ s.engine.idCounter) → i.id = s.engine.idCounter) ∧
      t.engine.idCounter = (if 255 ≤ i.id then 1 else i.id + 1) ∧
      t.tables.edit = none ∧ t.sPort = s.sPort ∧ t.zPort = s.zPort ∧ t.timer = s.timer ∧
      (SoundTables s → i.planFault = false ∧ t.engine.general = s.engine.general ∧
        t.faultUnit = FaultUnit.take (.incident i.id (if e.confirmRequired then .confirming else .active))
          (if s.tables.edit.isSome then FaultUnit.take (.editEnded .broken) s.faultUnit else s.faultUnit)) ∧
      (e.confirmRequired = true →
        i.state = .confirming (headerValue Header.confirmWindow s) ∧ i.nextStep = none ∧ i.lastStep = none ∧
        i.planFault = false ∧ t.engine.general = generalAfter s (e.preAlert = true ∧ ¬readable) ∧
        ∀ z < 128, i.demand.get z =
          if e.preAlert = true ∧ readable ∧ z ∈ (s.tables.fields.storeys.get e.storey).zones then .alert else .none) ∧
      (e.confirmRequired = false → i.state = .active ∧ t.engine.general = generalAfter s (i.planFault = true) ∧
        i = Incident.entered s
          { id := i.id, state := .active, origin := e.storey, plan := e.plan, dzList := [(d, .inAlarm)], further := 0
            elapsed := 0, nextStep := none, lastStep := none, planFault := false, demand := .const .none })

/-- FIRE on a mapped detection zone joins the incident of its storey: its DZ list or its further-reports count takes the
report, and a CONFIRMING incident becomes ACTIVE at elapsed 0, keeps what demand it had, queues INCIDENT(id, ACTIVE)
and enters its plan: its next step is read from the Plan Directory and the steps of delay 0 are applied (at most 256,
log 16), an entry that is not sound giving a plan fault with GENERAL for it. -/
def Obligations.FireJoinsAnIncident : Prop :=
  ∀ (d p : Nat) (i : Incident) (s : State), d ≤ 511 → Sound s (detectionRef d) →
    let e := s.tables.fields.detections.get d
    e.mapped = true → s.incident p = some i → i.origin = e.storey →
    (∀ q < p, ∀ j, s.incident q = some j → j.origin ≠ e.storey) →
    let joined : Incident :=
      if d ∈ i.dzList.map Prod.fst then
        { i with dzList := i.dzList.map fun x => if x.1 = d then (d, .inAlarm) else x }
      else if i.dzList.length < 4 then { i with dzList := i.dzList ++ [(d, .inAlarm)] }
      else { i with further := min (i.further + 1) 255 }
    (i.state = .active ∨ i.state = .held →
      Leaves (.fire d) s { s with engine := { s.engine with incidents := s.engine.incidents.set p joined } }) ∧
    (∀ deadline, i.state = .confirming deadline → ∃ t j, Leaves (.fire d) s t ∧
      t.incident p = some j ∧ j = Incident.entered s { joined with state := .active, elapsed := 0 } ∧
      j.state = .active ∧ j.elapsed = 0 ∧ j.dzList = joined.dzList ∧
      j.further = joined.further ∧ j.id = i.id ∧ j.origin = i.origin ∧ j.plan = i.plan ∧
      (∀ z < 128, (i.demand.get z).rank ≤ (j.demand.get z).rank) ∧
      (∀ q, q ≠ p → t.incident q = s.incident q) ∧ t.engine.idCounter = s.engine.idCounter ∧
      (i.planFault = false → t.engine.general = generalAfter s (j.planFault = true)) ∧
      (SoundTables s →
        t.tables.edit = s.tables.edit ∧ t.faultUnit = FaultUnit.take (.incident i.id .active) s.faultUnit))

/-- RESTORE marks the detection zone in the DZ list that holds it; DFAULT and DFAULT_CLEAR are requests to the Fault
Unit; DETECT_DISCARD has no effect; CONFIRM_DEADLINE_EXPIRY removes the expired incident, queues INCIDENT(id, REMOVED)
and starts no all-clear; ALL_CLEAR_END withdraws the ended claim; PLAN_CLAIM_HANDOVER replaces the plan claims named and
no other, both with the test of every PENDING claim after their choices. -/
def Obligations.OtherEngineEvents : Prop :=
  (∀ (d : Nat) (s : State),
     ((∀ i ∈ s.engine.incidents, d ∉ i.dzList.map Prod.fst) → exec (.restore d) s = .next s) ∧
     (∀ p i, s.incident p = some i → d ∈ i.dzList.map Prod.fst →
       (∀ q < p, ∀ j, s.incident q = some j → d ∉ j.dzList.map Prod.fst) →
       exec (.restore d) s = .next
         { s with
           engine := { s.engine with
             incidents := s.engine.incidents.set p
               { i with dzList := i.dzList.map fun x => if x.1 = d then (d, .restored) else x } } }) ∧
     (d ≤ 511 →
       exec (.dfault d) s = .next
         { s with faultUnit := s.faultUnit.add (.detectorFault d) s.timer.seconds } ∧
       exec (.dfaultClear d) s = .next
         { s with faultUnit := s.faultUnit.remove (.detectorFault d) s.timer.seconds }) ∧
     (511 < d → exec (.dfault d) s = .next s ∧ exec (.dfaultClear d) s = .next s) ∧
     ∀ event, exec (.detectDiscard d event) s = .next s) ∧
  ∀ s : State,
    (∀ id, (∀ i ∈ s.engine.incidents, i.id = id → i.state ≠ .confirming 0) →
      Leaves (.confirmDeadlineExpiry id) s s) ∧
    (∀ id p i, DemandLaw s.engine → s.incident p = some i → i.id = id → i.state = .confirming 0 →
      (∀ q < p, ∀ j, s.incident q = some j → j.id ≠ id) →
      ∃ t, Leaves (.confirmDeadlineExpiry id) s t ∧ t.engine.incidents = s.engine.incidents.eraseIdx p ∧
        t.engine.general = s.engine.general ∧ t.engine.idCounter = s.engine.idCounter ∧
        (∀ z < 128, t.engine.allClear.get z = s.engine.allClear.get z) ∧ t.tables.edit = s.tables.edit ∧
        (SoundTables s → t.faultUnit = FaultUnit.take (.incident id .removed) s.faultUnit)) ∧
    (∀ z, s.engine.planClaim z ≠ none ∨ s.arbiter.planClaims.get z ≠ some .allClear →
      Leaves (.allClearEnd z) s s) ∧
    (∀ z, s.engine.planClaim z = none → s.arbiter.planClaims.get z = some .allClear →
      ∃ t, Leaves (.allClearEnd z) s t ∧ t.arbiter.planClaims.get z = none ∧ Beside s t ∧
        (SoundTables s → PendingTested s t) ∧
        ∀ y < 128, y ≠ z → t.arbiter.planClaims.get y = s.arbiter.planClaims.get y) ∧
    ∀ changes : List (Nat × Option PlanKind), (changes.map Prod.fst).Nodup →
      ∃ t, Leaves (.planClaimHandover changes) s t ∧ Beside s t ∧
        (SoundTables s → (∃ z < 128, z ∈ changes.map Prod.fst) → PendingTested s t) ∧
        (∀ z claim, (z, claim) ∈ changes → z < 128 → t.arbiter.planClaims.get z = claim) ∧
        ∀ z < 128, z ∉ changes.map Prod.fst → t.arbiter.planClaims.get z = s.arbiter.planClaims.get z

/-- INCIDENT_TICK: every all-clear timer falls by 1; each incident with no step left or none due yet counts its deadline
or its elapsed time, or expires with INCIDENT(id, REMOVED); the edit lease falls by 1 and runs out in OPEN with
EDIT_ENDED, the lease after the incidents (log 4). A lone ACTIVE incident whose step falls due applies it, and every
incident of the list applies its own due steps, at most 256 in one check (log 16), no other incident's record being
touched; one that meets a record, a header or a storey entry that is not sound has its plan fault, what the earlier
storeys raised being kept, GENERAL is set for it, and the incidents after it go on as usual. -/
def Obligations.IncidentTickCounts : Prop :=
  (∀ s : State, DemandLaw s.engine →
    (∀ i ∈ s.engine.incidents, i.state = .active → ∀ k, i.nextStep = some k →
      Sound s (stepRef k) ∧ min (i.elapsed + 1) 65535 < (s.tables.fields.steps.get k).delay) →
    ∃ t, Leaves .incidentTick s t ∧
      t.engine.incidents = s.engine.incidents.filterMap (fun i =>
        match i.state with
        | .confirming deadline => if deadline ≤ 1 then none else some { i with state := .confirming (deadline - 1) }
        | .active => some { i with elapsed := min (i.elapsed + 1) 65535 }
        | .held => some i) ∧
      (∀ z < 128, t.engine.allClear.get z = s.engine.allClear.get z - 1) ∧
      t.engine.general = s.engine.general ∧ t.engine.idCounter = s.engine.idCounter ∧
      t.tables.edit = s.tables.edit.bind (fun e =>
        if e.lease ≤ 1 ∧ e.phase = .opened then none else some { e with lease := e.lease - 1 }) ∧
      t.timer = s.timer ∧ t.sPort = s.sPort ∧ t.zPort = s.zPort) ∧
  (∀ s : State, ∃ t, Leaves .incidentTick s t ∧
    t.engine.incidents = s.engine.incidents.filterMap (Incident.ticked s) ∧
    t.engine.idCounter = s.engine.idCounter ∧
    ((∀ i ∈ s.engine.incidents, i.planFault = true → i.nextStep = none) →
      t.engine.general = generalAfter s
        (∃ i ∈ s.engine.incidents, i.planFault = false ∧ (i.ticked s).any Incident.planFault = true)) ∧
    (DemandLaw s.engine → ∀ z < 128, t.engine.demand.get z = t.engine.formed z ∧
      t.engine.allClear.get z = if t.engine.demand.get z = .none then s.engine.allClear.get z - 1 else 0) ∧
    (SoundTables s → t.engine.general = s.engine.general ∧
      t.faultUnit = noticesTaken
        ((s.engine.incidents.filterMap fun i =>
            if (i.ticked s).isNone then some (.incident i.id .removed) else none) ++
          match s.tables.edit with
          | some e => if e.lease ≤ 1 ∧ e.phase = .opened then [.editEnded .expired] else []
          | none => []) s.faultUnit)) ∧
  ∀ (s : State) (i : Incident) (k : Nat), SoundTables s → s.engine.incidents = [i] → i.state = .active →
    i.nextStep = some k → (s.tables.fields.steps.get k).delay = i.elapsed + 1 → i.elapsed < 3600 →
    ∃ t j, Leaves .incidentTick s t ∧ t.engine.incidents = [j] ∧ j.elapsed = i.elapsed + 1 ∧ j.state = .active ∧
      j.lastStep ≠ none ∧
      ∀ storey ∈ (stepRange s.tables.fields.header.storeyCount i.origin (s.tables.fields.steps.get k)).storeys,
        ∀ z ∈ (s.tables.fields.storeys.get storey).zones, z < 128 →
          (s.tables.fields.steps.get k).kind.demand.rank ≤ (j.demand.get z).rank

/-- A step applied whole raises the incident's demand on every zone of the storeys of its range and nowhere else, writes
the last-step record and moves next step; a due check goes on until the next step is END or not due. A step record or a
header that is not sound stops the application with nothing raised, and a storey entry that is not sound stops it there,
the earlier storeys of the range kept raised: the incident has its plan fault, its next step is END, its last-step
record stands, GENERAL is set for it, and no other incident is touched. -/
def Obligations.StepsAreAppliedWhole : Prop :=
  (∀ (s : State) (p k : Nat) (i : Incident), s.incident p = some i →
    let e := s.tables.fields.steps.get k
    let r := stepRange s.tables.fields.header.storeyCount i.origin e
    let stops (storeys : List Nat) : Prop := ∃ demand,
      (applyStep p k s).2 = false ∧
      (applyStep p k s).1.engine.incidents = s.engine.incidents.set p
        { i with planFault := true, nextStep := none, demand := demand } ∧
      (applyStep p k s).1.engine.general = some (s.engine.general.getD .planFault) ∧
      ∀ z < 128, demand.get z =
        if ∃ storey ∈ storeys, z ∈ (s.tables.fields.storeys.get storey).zones then (i.demand.get z).max e.kind.demand
        else i.demand.get z
    (¬Sound s (stepRef k) ∨ ¬Sound s headerRef → stops []) ∧
    (∀ before m after, Sound s (stepRef k) → Sound s headerRef → r.storeys = before ++ m :: after →
      (∀ storey ∈ before, Sound s (storeyRef storey)) → ¬Sound s (storeyRef m) → stops before) ∧
    (applyStep p k s).2 = i.appliesWhole s k ∧
    (applyStep p k s).1.engine.incidents = s.engine.incidents.set p (i.withStep s k) ∧
    ∀ n, (dueCheck p n s).engine.incidents = s.engine.incidents.set p (Incident.dueSteps s n i)) ∧
  ∀ (s : State) (p k : Nat) (i : Incident), SoundTables s → s.incident p = some i →
    let e := s.tables.fields.steps.get k
    let r := stepRange s.tables.fields.header.storeyCount i.origin e
    (∃ demand, applyStep p k s =
        ({ s with engine := (applyStep p k s).1.engine }, true) ∧
      (applyStep p k s).1.engine.incidents = s.engine.incidents.set p
        { i with
          demand := demand, nextStep := e.next
          lastStep := some { step := k, range := r.range, clipped := r.clipped, unplaced := r.unplaced } } ∧
      ∀ z < 128, demand.get z =
        if ∃ storey ∈ r.storeys, z ∈ (s.tables.fields.storeys.get storey).zones then (i.demand.get z).max e.kind.demand
        else i.demand.get z) ∧
    (i.nextStep = some k → ∀ n, dueCheck p (n + 1) s =
      if i.elapsed < e.delay then s else dueCheck p n (applyStep p k s).1) ∧
    (i.nextStep = none → ∀ n, dueCheck p n s = s)

/-- The range of a step: an ALL step covers the building (R27); a RELATIVE step's raw range is clamped, carry moves what
is clipped to the other end and clamps again (R28 to R30). It follows from these rules, and is stated by none of them,
that the storeys reached and the storeys unplaced together are the step's length. -/
def Obligations.StepRangesCountStoreys : Prop :=
  (∀ (count origin : Nat) (e : StepRecord), e.scope = .all →
    stepRange count origin e =
      { range := if count = 0 then none else some (0, count - 1), clipped := 0, unplaced := 0 }) ∧
  ∀ (count origin : Nat) (e : StepRecord), e.scope = .relative → 1 ≤ e.length →
    let r := stepRange count origin e
    let rawLow : Int := origin + e.offset
    let rawHigh : Int := origin + e.offset + e.length - 1
    let topClip := max (rawHigh - (count - 1)) 0
    let bottomClip := max (-rawLow) 0
    let low := max rawLow 0
    let high := min rawHigh (count - 1)
    let low2 := low - topClip
    let high2 := high + bottomClip
    (high < low ↔ rawHigh < 0 ∨ (count : Int) ≤ rawLow ∨ count = 0) ∧
    (high < low → r = { range := none, clipped := e.length, unplaced := e.length }) ∧
    (low ≤ high → (r.clipped : Int) = topClip + bottomClip ∧
      (e.carry = false → r.range = some (low.toNat, high.toNat) ∧ r.unplaced = r.clipped) ∧
      (e.carry = true →
        r.range = some ((max low2 0).toNat, (min high2 (count - 1)).toNat) ∧
        (r.unplaced : Int) = max (-low2) 0 + max (high2 - (count - 1)) 0)) ∧
    r.clipped ≤ e.length ∧ r.storeys.length + r.unplaced = e.length ∧ ∀ storey ∈ r.storeys, storey < count

/-- The named controls: NOT_FOUND for an id that no incident holds, BAD_STATE in a wrong state, else OK with the id, ADVANCE
too without its next step (log 35). HOLD and RESUME keep elapsed; RESUME makes a due check at once, which applies every
step already due (at most 256, log 16) or meets a plan fault; ADVANCE applies the next step at once, with the demand it
raises, raises elapsed to its delay and keeps the state, and meets a plan fault, elapsed unchanged, at a Step Pool
record, a header or a storey entry that is not sound. -/
def Obligations.HoldResumeAndAdvance : Prop :=
  (∀ (q : Sender) (id : Nat) (s : State), Heard q .operate s →
     let u := lookedUp q s
     ((∀ i ∈ s.engine.incidents, i.id ≠ id) →
       Leaves (.hold q id) s (answered q (.response 14 .notFound [byte id]) u) ∧
       Leaves (.resume q id) s (answered q (.response 15 .notFound [byte id]) u) ∧
       Leaves (.advance q id) s (answered q (.response 16 .notFound [byte id]) u) ∧
       Leaves (.resetIncident q id) s (answered q (.response 17 .notFound [byte id]) u)) ∧
     ∀ p i, s.incident p = some i → i.id = id → (∀ x < p, ∀ j, s.incident x = some j → j.id ≠ id) →
       (i.state = .active →
         Leaves (.hold q id) s (answered q (.response 14 .ok [byte id])
           { u with
             engine := { u.engine with incidents := u.engine.incidents.set p { i with state := .held } }
             faultUnit := FaultUnit.take (.incident id .held) u.faultUnit })) ∧
       (i.state ≠ .active → Leaves (.hold q id) s (answered q (.response 14 .badState [byte id]) u)) ∧
       (i.state ≠ .held → Leaves (.resume q id) s (answered q (.response 15 .badState [byte id]) u)) ∧
       (i.state = .held → ∃ t j, Leaves (.resume q id) s t ∧ t.incident p = some j ∧ j.state = .active ∧
         j.elapsed = i.elapsed ∧ j.id = id ∧ AnswerQueued q (.response 15 .ok [byte id]) t ∧
         (i.nextStep = none → t = answered q (.response 15 .ok [byte id])
           { u with
             engine := { u.engine with incidents := u.engine.incidents.set p { i with state := .active } }
             faultUnit := FaultUnit.take (.incident id .active) u.faultUnit }) ∧
         t.engine.incidents = s.engine.incidents.set p j ∧ j = Incident.dueSteps s 256 { i with state := .active } ∧
         (i.planFault = false → t.engine.general = generalAfter s (j.planFault = true)) ∧
         (SoundTables s →
           t.engine.general = s.engine.general ∧ t.engine.idCounter = s.engine.idCounter ∧
           (DemandLaw s.engine → ∀ z < 128, t.engine.demand.get z = t.engine.formed z) ∧
           t.faultUnit = FaultUnit.take (.incident id .active) s.faultUnit) ∧
         ∀ k, i.nextStep = some k → ¬Sound u (stepRef k) →
           j.planFault = true ∧ j.nextStep = none ∧ j.demand = i.demand ∧ t.engine.general ≠ none)) ∧
  ∀ (q : Sender) (id p : Nat) (i : Incident) (s : State), Heard q .operate s → s.incident p = some i → i.id = id →
    (∀ x < p, ∀ j, s.incident x = some j → j.id ≠ id) →
    let refused := Leaves (.advance q id) s (answered q (.response 16 .badState [byte id]) (lookedUp q s))
    (i.nextStep = none → refused) ∧
    (∀ deadline, i.state = .confirming deadline → refused) ∧
    ∀ k, i.state = .active ∨ i.state = .held → i.nextStep = some k →
      let e := s.tables.fields.steps.get k
      (∃ t, Leaves (.advance q id) s t ∧ AnswerQueued q (.response 16 .ok [byte id]) t ∧
        t.incident p = some
          (if i.appliesWhole s k = true then { i.withStep s k with elapsed := max i.elapsed e.delay }
          else i.withStep s k) ∧
        (∀ x, x ≠ p → t.incident x = s.incident x) ∧
        t.engine.general = generalAfter s (i.appliesWhole s k = false)) ∧
      (SoundTables s → ∃ t j, Leaves (.advance q id) s t ∧ t.incident p = some j ∧ j.state = i.state ∧
        j.elapsed = max i.elapsed e.delay ∧ j.nextStep = e.next ∧ j.lastStep.map LastStep.step = some k ∧
        j = { i.withStep s k with elapsed := max i.elapsed e.delay } ∧
        (∀ x, x ≠ p → t.incident x = s.incident x) ∧ t.engine.general = s.engine.general ∧
        AnswerQueued q (.response 16 .ok [byte id]) t) ∧
      (¬Sound s (stepRef k) → ∃ t j, Leaves (.advance q id) s t ∧ t.incident p = some j ∧ j.planFault = true ∧
        j.nextStep = none ∧ j.elapsed = i.elapsed ∧ j.demand = i.demand ∧ t.engine.general ≠ none ∧
        AnswerQueued q (.response 16 .ok [byte id]) t)

/-- RESET INCIDENT removes the incident and forms its zones' demand again, RESET ALL removes all and clears GENERAL,
each with its notifications, and both load the all-clear period on exactly the zones whose demand falls to NONE;
EVACUATE ALL asks for GENERAL with cause OFFICER. -/
def Obligations.ResetsAndEvacuateAll : Prop :=
  (∀ (q : Sender) (id p : Nat) (i : Incident) (s : State), Heard q .operate s → DemandLaw s.engine →
     s.incident p = some i → i.id = id → (∀ x < p, ∀ j, s.incident x = some j → j.id ≠ id) →
     ∃ t, Leaves (.resetIncident q id) s t ∧ t.engine.incidents = s.engine.incidents.eraseIdx p ∧
       t.engine.general = s.engine.general ∧ t.engine.idCounter = s.engine.idCounter ∧
       (∀ z < 128, t.engine.demand.get z = t.engine.formed z) ∧
       (∀ z < 128, t.engine.allClear.get z =
         if s.engine.demand.get z ≠ .none ∧ t.engine.demand.get z = .none then headerValue Header.allClearPeriod s
         else s.engine.allClear.get z) ∧
       t.tables.edit = s.tables.edit ∧ t.sPort = s.sPort ∧ t.zPort = s.zPort ∧
       (SoundTables s → t.faultUnit = FaultUnit.take (.incident id .removed) s.faultUnit) ∧
       AnswerQueued q (.response 17 .ok [byte id]) t) ∧
  ∀ (q : Sender) (s : State), Heard q .operate s →
    let u := lookedUp q s
    (s.engine.general ≠ none → Leaves (.evacuateAll q) s (answered q (.response 18 .ok []) u)) ∧
    (s.engine.general = none → ∃ t, Leaves (.evacuateAll q) s t ∧ GeneralSet .officer u.faultUnit u t ∧
      AnswerQueued q (.response 18 .ok []) t) ∧
    ∃ t, Leaves (.resetAll q) s t ∧ t.engine.incidents = [] ∧ t.engine.general = none ∧
      t.engine.idCounter = s.engine.idCounter ∧
      (∀ z < 128, t.engine.demand.get z = .none ∧ t.engine.allClear.get z =
        if s.engine.demand.get z = .none then s.engine.allClear.get z else headerValue Header.allClearPeriod s) ∧
      t.tables.edit = s.tables.edit ∧ t.sPort = s.sPort ∧ t.zPort = s.zPort ∧
      (SoundTables s → t.faultUnit = noticesTaken
        (s.engine.incidents.map (fun i => .incident i.id .removed) ++
          (s.engine.general.map (Notice.general false)).toList) s.faultUnit) ∧
      AnswerQueued q (.response 19 .ok []) t

/-! ### Claims and zone arbitration -/

/-- CLAIM is discarded where no response place is free, and else its station's authority is looked up, bound or not
(R17), and it is refused in the order of R85, nothing but the lookup being left behind. -/
def Obligations.ClaimsRefusedInOrder : Prop :=
  ∀ (q : Sender) (level channel : Nat) (selection : SelectionField) (s : State),
    let u := lookedUp q s
    let refused (result : ClaimResult) : Prop :=
      Leaves (.claim q level channel selection) s (answered q (.claimResponse result) u)
    let live := level = 1 ∨ level = 2 ∨ level = 6 ∨ level = 7
    let good := channel ≤ 31 ∧ match selection with
      | .span first count => 1 ≤ count ∧ first + count ≤ 128
      | .groups set => set ≠ 0
      | .unknown _ => False
    let free := ∀ k < 16, ∀ c, s.arbiter.claims.get k = some c → c.channel ≠ channel
    (8 ≤ s.router.places.length → Leaves (.claim q level channel selection) s s) ∧
    (s.router.places.length < 8 → HandLaw s.router → s.router.address = 0 →
      refused .notBound) ∧
    (s.router.places.length < 8 → HandLaw s.router → s.router.address ≠ 0 →
      Authority.operate.meets (authorityOf q.station s).2 = false → refused .denied) ∧
    (Heard q .operate s →
      (¬live → refused .badLevel) ∧ (live → ¬good → refused .badValue) ∧ (live → good → ¬free → refused .channelBusy) ∧
      (live → good → free → (∀ k < 16, s.arbiter.claims.get k ≠ none) → refused .full))

/-- CLAIM accepted: the lowest free slot takes the claim; at level 7 it is ON-AIR at once with the newest stamp; below,
it is CONFIRMING with its request queued exactly where it would win a zone, else PENDING. The stamps are given as R84
says: the counter rises by 1, and at 65535 the stamps held become 1, 2 and so on in their order first. A claim that goes
on air with a zone chosen has every PENDING claim tested. Whatever its reading of the tables marks, a claim below level 7
is tested at once, before any older PENDING claim: it takes the first confirm number of the event where it passes. -/
def Obligations.ClaimsAccepted : Prop :=
  (∀ a : Arbiter,
    (a.arrivalCounter ≠ 65535 → a.nextArrival = { a with arrivalCounter := a.arrivalCounter + 1 }) ∧
    (a.onAirCounter ≠ 65535 → a.nextOnAir = { a with onAirCounter := a.onAirCounter + 1 }) ∧
    (a.arrivalCounter = 65535 → a.nextArrival = { a with
      claims := a.nextArrival.claims
      arrivalCounter := a.countOf (fun c => some c.arrival) + 1 } ∧
      ∀ k < 16, a.nextArrival.claims.get k = (a.claims.get k).map fun c =>
        { c with arrival := a.placeOf (fun c => some c.arrival) c.arrival }) ∧
    (a.onAirCounter = 65535 → a.nextOnAir = { a with
      claims := a.nextOnAir.claims
      onAirCounter := a.countOf Claim.onAirStamp + 1 } ∧
      ∀ k < 16, a.nextOnAir.claims.get k = (a.claims.get k).map fun c =>
        { c with state := match c.state with
          | .onAir n => .onAir (a.placeOf Claim.onAirStamp n)
          | other => other }) ∧
    ∀ (stamp : Claim → Option Nat) (j k m n : Nat), j < 16 → k < 16 → (a.claims.get j).bind stamp = some m →
      (a.claims.get k).bind stamp = some n →
      1 ≤ a.placeOf stamp m ∧ a.placeOf stamp m ≤ a.countOf stamp ∧
      (a.placeOf stamp m < a.placeOf stamp n ↔ m < n)) ∧
  ∀ (q : Sender) (level channel k : Nat) (field : SelectionField) (selection : Selection) (s : State),
    Heard q .operate s → level = 1 ∨ level = 2 ∨ level = 6 ∨ level = 7 → channel ≤ 31 →
    selectionOf field = some selection →
    (∀ j < 16, ∀ c, s.arbiter.claims.get j = some c → c.channel ≠ channel) →
    k < 16 → s.arbiter.claims.get k = none → (∀ j < k, s.arbiter.claims.get j ≠ none) →
    ∃ t c, Leaves (.claim q level channel field) s t ∧ t.arbiter.claims.get k = some c ∧
      c.station = q.station ∧ c.channel = channel ∧ c.level = level ∧ c.selection = selection ∧ c.waitCount = 0 ∧
      AnswerQueued q (.claimResponse (.accepted k)) t ∧
      (∀ j < 16, j ≠ k → (t.arbiter.claims.get j).map Claim.channel = (s.arbiter.claims.get j).map Claim.channel ∧
        (t.arbiter.claims.get j).map Claim.arrival = (s.arbiter.nextArrival.claims.get j).map Claim.arrival) ∧
      t.arbiter.arrivalCounter = s.arbiter.nextArrival.arrivalCounter ∧ c.arrival = t.arbiter.arrivalCounter ∧
      (level = 7 → c.state = .onAir t.arbiter.onAirCounter ∧ StampGiven k s t ∧
        (SoundTables s → (∃ z < 128, selects s selection z = true) → PendingTested s t)) ∧
      (level ≠ 7 → t.arbiter.onAirCounter = s.arbiter.onAirCounter ∧ ∀ j < 16,
        (t.arbiter.claims.get j).bind Claim.onAirStamp = (s.arbiter.claims.get j).bind Claim.onAirStamp) ∧
      (level ≠ 7 → SoundTables s →
        let wins (z : Nat) : Prop :=
          selects s selection z = true ∧ eligible level (s.arbiter.masks.get z) = true ∧ (winner s z).2 < level
        (∀ z < 128, wins z →
          t.arbiter.confirmCounter = (s.arbiter.confirmCounter + 1) % 256 ∧
          c.state = .confirming t.arbiter.confirmCounter (16 * s.tables.fields.header.confirmTimeout) ∧
          { station := q.station, slot := k, level := level, channel := channel,
            number := t.arbiter.confirmCounter } ∈ t.router.confirms) ∧
        ((∀ z < 128, ¬wins z) → c.state = .pending)) ∧
      (level ≠ 7 →
        (Wins t c → c.state = .confirming ((s.arbiter.confirmCounter + 1) % 256)
          (16 * headerValue Header.confirmTimeout s)) ∧
        (¬Wins t c → c.state = .pending))

/-- RELEASE from the claim's station frees the slot and the zones it held, and where the claim was ON-AIR every PENDING
claim is tested against what that leaves (R88, R96; log 15); CONFIRM_TIMEOUT drops a CONFIRMING claim whose timer stands
at 0; RETRY_INTERVAL_END asks a WAITING one again with a fresh number and timer; none of them does anything else. -/
def Obligations.ReleasesAndClaimTimers : Prop :=
  (∀ (station slot : Nat) (s : State),
     (∀ c, s.arbiter.claims.get slot = some c → c.station = station →
       ∃ t, Leaves (.release station slot) s t ∧ Beside s t ∧ t.arbiter.claims.get slot = none ∧
         (∀ z < 128, t.arbiter.holders.get z ≠ .slot slot) ∧ t.arbiter.planClaims = s.arbiter.planClaims ∧
         (∀ j < 16, j ≠ slot →
           (t.arbiter.claims.get j).map Claim.channel = (s.arbiter.claims.get j).map Claim.channel) ∧
         (SoundTables s → t.faultUnit = s.faultUnit) ∧
         (∀ stamp, c.state = .onAir stamp → SoundTables s → PendingTested s t)) ∧
     ((∀ c, s.arbiter.claims.get slot = some c → c.station ≠ station) → Leaves (.release station slot) s s)) ∧
  ∀ (slot : Nat) (s : State),
    (∀ c number, s.arbiter.claims.get slot = some c → c.state = .confirming number 0 →
      ∃ t, Leaves (.confirmTimeout slot) s t ∧ Beside s t ∧ t.arbiter.claims.get slot = none ∧
        (SoundTables s → t.faultUnit = FaultUnit.take (.claimDropped slot c.station .noAnswer) s.faultUnit)) ∧
    ((∀ c number, s.arbiter.claims.get slot = some c → c.state ≠ .confirming number 0) →
      Leaves (.confirmTimeout slot) s s) ∧
    (∀ c, s.arbiter.claims.get slot = some c → c.state = .waiting 0 →
      let u := headerUsed s
      let number := (s.arbiter.confirmCounter + 1) % 256
      Leaves (.retryIntervalEnd slot) s
        { u with
          arbiter := { u.arbiter with
            confirmCounter := number
            claims := u.arbiter.claims.set slot
              (some { c with state := .confirming number (16 * headerValue Header.confirmTimeout s) }) }
          router := { u.router with
            confirms := u.router.confirms.filter (fun d => decide (d.slot ≠ slot)) ++
              [{ station := c.station, slot := slot, level := c.level, channel := c.channel, number := number }] } }) ∧
    ((∀ c, s.arbiter.claims.get slot = some c → c.state ≠ .waiting 0) → Leaves (.retryIntervalEnd slot) s s)

/-- ANSWER: an answer that does not match a claim in CONFIRMING by slot, station and confirm number has no effect;
WITHDRAW drops the claim; WAIT counts and waits the retry interval, and drops the claim at the fourth. -/
def Obligations.AnswersThatEndOrWait : Prop :=
  ∀ (station slot number : Nat) (s : State),
    ((∀ c timer, s.arbiter.claims.get slot = some c → c.state = .confirming number timer → c.station ≠ station) →
      Leaves (.answerReady station slot number) s s ∧ Leaves (.answerDefault station slot number) s s ∧
      Leaves (.answerWithdraw station slot number) s s ∧ Leaves (.answerWait station slot number) s s) ∧
    ∀ c timer, s.arbiter.claims.get slot = some c → c.state = .confirming number timer → c.station = station →
      let dropped (i : Instr) (reason : DropReason) : Prop :=
        ∃ t, Leaves i s t ∧ Beside s t ∧ t.arbiter.claims.get slot = none ∧
          (SoundTables s → t.faultUnit = FaultUnit.take (.claimDropped slot station reason) s.faultUnit)
      dropped (.answerWithdraw station slot number) .withdrawn ∧
      (3 ≤ c.waitCount → dropped (.answerWait station slot number) .retryLimit) ∧
      (c.waitCount < 3 →
        let u := headerUsed s
        Leaves (.answerWait station slot number) s
          { u with
            arbiter := { u.arbiter with
              claims := u.arbiter.claims.set slot (some
                { c with
                  waitCount := c.waitCount + 1
                  state := .waiting (16 * headerValue Header.retryInterval s) }) } }) ∧
      (s.crosspoint.presence.get c.channel ≠ .present →
        ∃ t, exec (.answerReady station slot number) s = .next t ∧
          exec (.answerWait station slot number) s = .next t)

/-- READY on a PRESENT channel and DEFAULT put the claim on air with the newest stamp (the counter raised by 1, or
renumbered first), its choices being followed by the test of every PENDING claim, DEFAULT with the channel of its
level's entry; DEFAULT drops the claim with CHANNEL_BUSY where that channel is held by another claim, and with TABLE
where the entry is not sound, after TABLE_CORRUPT has been asked for. -/
def Obligations.AnswersThatPutOnAir : Prop :=
  ∀ (station slot number timer : Nat) (c : Claim) (s : State), s.arbiter.claims.get slot = some c →
    c.state = .confirming number timer → c.station = station →
    let onAir (i : Instr) (channel : Nat) : Prop :=
      ∃ t, Leaves i s t ∧ Beside s t ∧ ∃ d, t.arbiter.claims.get slot = some d ∧
        d.state = .onAir t.arbiter.onAirCounter ∧ d.channel = channel ∧ d.station = station ∧ d.level = c.level ∧
        d.selection = c.selection ∧ d.waitCount = c.waitCount ∧ d.arrival = c.arrival ∧ StampGiven slot s t ∧
        (SoundTables s → (∃ z < 128, selects s c.selection z = true) → PendingTested s t)
    let dropped (reason : DropReason) : Prop :=
      ∃ t, Leaves (.answerDefault station slot number) s t ∧ Beside s t ∧ t.arbiter.claims.get slot = none ∧
        (SoundTables s → t.faultUnit = FaultUnit.take (.claimDropped slot station reason) s.faultUnit)
    let index := if c.level = 1 then 0 else if c.level = 2 then 1 else 2
    let channel := s.tables.fields.defaults.get index
    let held := ∃ j < 16, j ≠ slot ∧ ∃ d, s.arbiter.claims.get j = some d ∧ d.channel = channel
    (s.crosspoint.presence.get c.channel = .present → onAir (.answerReady station slot number) c.channel) ∧
    (Sound s (defaultRef index) → ¬held → onAir (.answerDefault station slot number) channel) ∧
    (Sound s (defaultRef index) → held → dropped .channelBusy) ∧
    (¬Sound s (defaultRef index) →
      ∃ t, Leaves (.answerDefault station slot number) s t ∧ Beside s t ∧ t.arbiter.claims.get slot = none ∧
        t.marked (defaultRef index) = true ∧
        ((∀ r, r ≠ defaultRef index → Sound s r) →
          t.faultUnit = FaultUnit.take (.claimDropped slot station .table)
            (s.faultUnit.add (.tableCorrupt (defaultRef index)) s.timer.seconds)))

/-- The winner of R100 is an eligible candidate that no eligible candidate beats: of the highest level, and among live
claims of one level the oldest on air, at level 7 the newest; it is NONE exactly where there is no eligible
candidate. -/
def Obligations.WinnerIsBestCandidate : Prop :=
  ∀ (s : State) (z : Nat),
    let onAir (k level stamp : Nat) : Prop := k < 16 ∧ ∃ c, s.arbiter.claims.get k = some c ∧ c.state = .onAir stamp ∧
      c.level = level ∧ selects s c.selection z = true ∧ (level = 7 ∨ s.arbiter.masks.get z < level)
    let plan (level : Nat) : Prop := ∃ kind, s.arbiter.planClaims.get z = some kind ∧ planLevel kind = level ∧
      s.arbiter.masks.get z < level
    ((winner s z).1 = .none ↔ (∀ k level stamp, ¬onAir k level stamp) ∧ ∀ level, ¬plan level) ∧
    ((winner s z).1 = .plan → plan (winner s z).2) ∧
    (∀ k, (winner s z).1 = .slot k → ∃ stamp, onAir k (winner s z).2 stamp ∧
      ∀ j other, onAir j (winner s z).2 other →
        if (winner s z).2 = 7 then other ≤ stamp else stamp ≤ other) ∧
    (∀ k level stamp, onAir k level stamp → level ≤ (winner s z).2) ∧
    ∀ level, plan level → level ≤ (winner s z).2

/-- SET MASK and SET TRIM answer BAD_VALUE for an empty span, a span past zone 127 or a value out of range; else every
mask or trim of the span takes the value and no other changes, and on a single zone ZONE_DISABLED follows the mask's
crossing of 3, and after a mask every PENDING claim is tested. -/
def Obligations.MasksAndTrimsAreSet : Prop :=
  (∀ (q : Sender) (first count value : Nat) (s : State), Heard q .operate s →
     (count = 0 ∨ 128 < first + count ∨ 6 < value →
       Leaves (.setMask q first count value) s (answered q (.response 12 .badValue []) (lookedUp q s))) ∧
     (1 ≤ count → first + count ≤ 128 → value ≤ 6 → ∃ t, Leaves (.setMask q first count value) s t ∧
       AnswerQueued q (.response 12 .ok []) t ∧ t.engine = s.engine ∧ t.arbiter.planClaims = s.arbiter.planClaims ∧
       t.timer = s.timer ∧ t.sPort = s.sPort ∧ t.zPort = s.zPort ∧ t.tables.edit = s.tables.edit ∧
       (SoundTables s →
         (∀ z < 128, t.arbiter.masks.get z =
           if first ≤ z ∧ z < first + count then value else s.arbiter.masks.get z) ∧
         t.crosspoint.trims = s.crosspoint.trims ∧ PendingTested s t ∧
         (count = 1 → t.faultUnit =
           if s.arbiter.masks.get first < 3 ∧ 3 ≤ value then s.faultUnit.add (.zoneDisabled first) s.timer.seconds
           else if 3 ≤ s.arbiter.masks.get first ∧ value < 3 then
             s.faultUnit.remove (.zoneDisabled first) s.timer.seconds
           else s.faultUnit)))) ∧
  ∀ (q : Sender) (first count value : Nat) (s : State), Heard q .operate s →
    let u := lookedUp q s
    (count = 0 ∨ 128 < first + count ∨ 31 < value →
      Leaves (.setTrim q first count value) s (answered q (.response 13 .badValue []) u)) ∧
    (1 ≤ count → first + count ≤ 128 → value ≤ 31 → ∃ trims : Tab Nat 128,
      Leaves (.setTrim q first count value) s
        (answered q (.response 13 .ok []) { u with crosspoint := { u.crosspoint with trims := trims } }) ∧
      ∀ z < 128, trims.get z = if first ≤ z ∧ z < first + count then value else u.crosspoint.trims.get z)

/-- RESERVATION_REQUEST reserves a zone whose holder is NONE and ends a reservation held on another zone;
RESERVATION_RELEASE ends the reservation of its zone, the choice of either being followed by the test of every PENDING
claim; neither does anything else where its condition fails. -/
def Obligations.ReservationsHeldAndEnded : Prop :=
  ∀ (z : Nat) (s : State), z < 128 → (∀ y < 128, HolderLaw s y) →
    (SoundTables s → s.arbiter.reserved = none ∨ s.arbiter.reserved = some z → s.arbiter.holders.get z = .none →
      ∃ t, Leaves (.reservationRequest z) s t ∧ Beside s t ∧ t.arbiter.reserved = some z ∧
        t.arbiter.holders = s.arbiter.holders ∧ t.sequencer = s.sequencer ∧ PendingTested s t) ∧
    (s.arbiter.reserved = none → s.arbiter.holders.get z ≠ .none → Leaves (.reservationRequest z) s s) ∧
    (∀ y, s.arbiter.reserved = some y → y ≠ z →
      ∃ t, Leaves (.reservationRequest z) s t ∧ Beside s t ∧ t.arbiter.reserved ≠ some y) ∧
    (s.arbiter.reserved = some z → ∃ t, Leaves (.reservationRelease z) s t ∧ Beside s t ∧ t.arbiter.reserved = none ∧
      t.arbiter.holders.get z = (winner t z).1 ∧ t.sequencer = s.sequencer ∧ (SoundTables s → PendingTested s t)) ∧
    (s.arbiter.reserved ≠ some z → Leaves (.reservationRelease z) s s)

/-- CHANNEL_PRESENCE_CHANGE: a channel whose run counter stands at 64 changes its presence as R116 says, with its fault,
and a channel lost drops its claim; a shorter run changes nothing (log 6). -/
def Obligations.PresenceChanges : Prop :=
  ∀ (c : Nat) (s : State), c < 32 →
    let turned (p : Presence) : Crosspoint :=
      { s.crosspoint with runs := s.crosspoint.runs.set c 0, presence := s.crosspoint.presence.set c p }
    (s.crosspoint.runs.get c < 64 → Leaves (.channelPresenceChange c) s s) ∧
    (64 ≤ s.crosspoint.runs.get c →
      (s.crosspoint.presence.get c = .absent →
        Leaves (.channelPresenceChange c) s { s with crosspoint := turned .present }) ∧
      (s.crosspoint.presence.get c = .lost →
        Leaves (.channelPresenceChange c) s
          { s with
            crosspoint := turned .present, faultUnit := s.faultUnit.remove (.sourceLost c) s.timer.seconds }) ∧
      (s.crosspoint.presence.get c = .present →
        ∃ t, Leaves (.channelPresenceChange c) s t ∧ t.crosspoint.presence = s.crosspoint.presence.set c .lost ∧
          t.crosspoint.runs = s.crosspoint.runs.set c 0 ∧ t.crosspoint.samples = s.crosspoint.samples ∧
          (∀ k < 16, ∀ d, t.arbiter.claims.get k = some d → d.channel ≠ c) ∧
          ((∀ k < 16, ∀ d, s.arbiter.claims.get k = some d → d.channel ≠ c) →
            t = { s with
              crosspoint := turned .lost, faultUnit := s.faultUnit.add (.sourceLost c) s.timer.seconds })))

/-! ### The Supervision Sequencer -/

/-- SUPERVISION_TICK and SWEEP while a step is in hand: the latch is set or the overdue count raised, up to 255; in
DEFERRED a tick is counted and owed and the count then held against the limit, as by DEFERRAL_LIMIT (log 6): below it
that is all, at it the step ends BUSY_SKIPPED and the owed steps are started at once, as by a tick in the IDLE that the
end leaves; SWEEP with a count out of range is refused. -/
def Obligations.StepsAreOwed : Prop :=
  (∀ s : State, s.sequencer.step.pilotZone ≠ none →
    Leaves .supervisionTick s
      { s with
        sequencer :=
          if s.sequencer.latch = false then { s.sequencer with latch := true, overdue := min s.sequencer.overdue 255 }
          else { s.sequencer with overdue := min (s.sequencer.overdue + 1) 255 } }) ∧
  (∀ (s : State) (z n : Nat), s.sequencer.step = .deferred z n → n + 1 < headerValue Header.deferralLimit s →
    let u := headerUsed s
    Leaves .supervisionTick s
      { u with
        sequencer := { s.sequencer with
          step := .deferred z (n + 1), overdue := min (s.sequencer.overdue + 1) 255 } }) ∧
  (∀ (s : State) (z n : Nat), s.sequencer.step = .deferred z n →
    exec .supervisionTick s = exec .deferralLimit
      { s with
        sequencer := { s.sequencer with
          step := .deferred z (n + 1), overdue := min (s.sequencer.overdue + 1) 255 } } ∧
    (SoundTables s → s.tables.fields.header.deferralLimit ≤ n + 1 → s.sequencer.overdue < 255 →
      exec .supervisionTick s = exec .supervisionTick
        { s with
          sequencer := { s.sequencer with
            step := .idle, pointer := (z + 1) % 128, scrubPointer := (s.sequencer.scrubPointer + 1) % 128
            zones := s.sequencer.zones.set z { s.sequencer.zones.get z with last := .busySkipped } } })) ∧
  ∀ (q : Sender) (count : Nat) (s : State), Heard q .operate s →
    let u := lookedUp q s
    (count = 0 ∨ 128 < count → Leaves (.sweep q count) s (answered q (.response 20 .badValue []) u)) ∧
    (1 ≤ count → count ≤ 128 → u.sequencer.step ≠ .idle →
      Leaves (.sweep q count) s (answered q (.response 20 .ok [])
        { u with
          sequencer :=
            if u.sequencer.latch = false then
              { u.sequencer with latch := true, overdue := min (u.sequencer.overdue + (count - 1)) 255 }
            else { u.sequencer with overdue := min (u.sequencer.overdue + count) 255 } })) ∧
    (1 ≤ count → count ≤ 128 → SoundTables s → ZoneLaw s → s.sequencer.step = .idle → s.sequencer.latch = false →
      s.sequencer.overdue = 0 → (∀ z < 128, (s.tables.fields.zones.get z).supervised = false) →
      Leaves (.sweep q count) s (answered q (.response 20 .ok [])
        { s with
          sequencer := { s.sequencer with scrubPointer := (s.sequencer.scrubPointer + count) % 128 } }))

/-- A tick in IDLE with sound tables starts a step (its reservation asked for and answered within the command, log 22)
on the first supervised zone from the pointer: a pilot under a reservation where the zone's holder is NONE, DEFERRED
under paging or background, an in-use test above, NO_REPORT where reports are not available; with no supervised zone a
scrub line is checked and the scrub pointer moves on. A step that ends asks for the line faults of its result. -/
def Obligations.StepsStart : Prop :=
  ∀ s : State, SoundTables s → ZoneLaw s → (∀ z < 128, HolderLaw s z) → s.arbiter.reserved = none →
    s.sequencer.step = .idle → s.sequencer.latch = false → s.sequencer.overdue = 0 →
    let supervised (z : Nat) : Bool := (s.tables.fields.zones.get z).supervised
    let scrubbed := (s.sequencer.scrubPointer + 1) % 128
    ((∀ z < 128, supervised z = false) →
      Leaves .supervisionTick s { s with sequencer := { s.sequencer with scrubPointer := scrubbed } }) ∧
    ∀ k < 128, (∀ j < k, supervised ((s.sequencer.pointer + j) % 128) = false) →
      let z := (s.sequencer.pointer + k) % 128
      supervised z = true →
      let e := s.tables.fields.zones.get z
      let ended (r : LastResult) : Prop := ∃ t, Leaves .supervisionTick s t ∧
        t.sequencer =
          { s.sequencer with
            step := .idle, pointer := (z + 1) % 128, scrubPointer := scrubbed
            zones := s.sequencer.zones.set z (countResult r (s.sequencer.zones.get z)) } ∧
        t.faultUnit = (askLineFaults z r { s with sequencer := t.sequencer }).faultUnit ∧
        t.arbiter = s.arbiter ∧ Beside s t
      (s.sequencer.reportsAvailable = false → ended (.failed .noReport)) ∧
      (s.sequencer.reportsAvailable = true → 3 ≤ holderLevel s z →
        s.arbiter.holders.get z ≠ .none → ended (classify e.low e.high (s.zPort.reports.get z))) ∧
      (s.sequencer.reportsAvailable = true → s.arbiter.holders.get z ≠ .none →
        holderLevel s z = 1 ∨ holderLevel s z = 2 →
        Leaves .supervisionTick s
          { s with sequencer := { s.sequencer with step := .deferred z 0, pointer := z } }) ∧
      (s.sequencer.reportsAvailable = true → s.arbiter.holders.get z = .none →
        ∃ t, Leaves .supervisionTick s t ∧ t.arbiter.reserved = some z ∧ t.arbiter.holders = s.arbiter.holders ∧
          t.sequencer = { s.sequencer with step := .pilot z, pointer := z } ∧ Beside s t)

/-- A pilot step follows the return frames: PILOT to SETTLE with the settle count, SETTLE down to SAMPLE with 16, SAMPLE
down while no report is valid; a frame in IDLE or DEFERRED has no effect; SETTLE_END and the abort of a step are as
their rules say, the abort owing the step again and starting it. SETTLE_END and SAMPLE_WINDOW_END as commands act where
their counter stands at 0 and nowhere else (log 6). -/
def Obligations.PilotStepsMoveOn : Prop :=
  ∀ (s : State) (z n : Nat),
    let stepping (p : StepState) : State := { s with sequencer := { s.sequencer with step := p } }
    let silent := ∀ r, s.zPort.reports.get z = some r → r.valid = false
    (s.sequencer.step = .pilot z →
      let u := headerUsed s
      Leaves .returnFrameArrival s
        { u with sequencer := { u.sequencer with step := .settle z (headerValue Header.settleCount s) } }) ∧
    (s.sequencer.step = .settle z n → 2 ≤ n → Leaves .returnFrameArrival s (stepping (.settle z (n - 1)))) ∧
    (s.sequencer.step = .settle z n → n ≤ 1 → Leaves .returnFrameArrival s (stepping (.sample z 16))) ∧
    (s.sequencer.step = .sample z n → silent → 2 ≤ n → Leaves .returnFrameArrival s (stepping (.sample z (n - 1)))) ∧
    (s.sequencer.step.pilotZone = none → Leaves .returnFrameArrival s s) ∧
    (s.sequencer.step = .settle z 0 → exec .settleEnd s = .next (stepping (.sample z 16))) ∧
    ((∀ y, s.sequencer.step ≠ .settle y 0) → exec .settleEnd s = .next s) ∧
    (s.sequencer.step.pilotZone = some z →
      ∃ t, exec (.abort z) s = .next t ∧ exec .supervisionTick (stepping .idle) = .next t) ∧
    (s.sequencer.step.pilotZone ≠ some z → Leaves (.abort z) s s) ∧
    ((∀ y, s.sequencer.step ≠ .sample y 0) → Leaves .sampleWindowEnd s s)

/-- A pilot step with nothing else owed ends with the result of a valid report, or NO_REPORT at the end of its window or
when reports become absent: the result counted, its line faults asked for, the reservation released, the pointer on the
next zone and one line scrubbed. -/
def Obligations.PilotStepsEnd : Prop :=
  ∀ (s : State) (z : Nat), SoundTables s → (∀ y < 128, HolderLaw s y) → z < 128 → s.arbiter.reserved = some z →
    s.sequencer.latch = false → s.sequencer.overdue = 0 →
    let e := s.tables.fields.zones.get z
    let ended (c : Instr) (r : LastResult) (available : Bool) : Prop := ∃ t, Leaves c s t ∧
      t.sequencer =
        { s.sequencer with
          step := .idle, pointer := (z + 1) % 128, scrubPointer := (s.sequencer.scrubPointer + 1) % 128
          reportsAvailable := available
          zones := s.sequencer.zones.set z (countResult r (s.sequencer.zones.get z)) } ∧
      t.faultUnit = (askLineFaults z r { s with sequencer := t.sequencer }).faultUnit ∧
      t.arbiter.reserved = none ∧ t.arbiter.holders.get z = (winner s z).1 ∧ Beside s t
    (∀ n r, s.sequencer.step = .sample z n → s.zPort.reports.get z = some r → r.valid = true →
      ended .returnFrameArrival (classify e.low e.high (some r)) s.sequencer.reportsAvailable) ∧
    (∀ n, s.sequencer.step = .sample z n → n ≤ 1 →
      (∀ r, s.zPort.reports.get z = some r → r.valid = false) →
      ended .returnFrameArrival (.failed .noReport) s.sequencer.reportsAvailable) ∧
    (s.sequencer.step = .sample z 0 →
      ended .sampleWindowEnd (.failed .noReport) s.sequencer.reportsAvailable) ∧
    (s.sequencer.step.pilotZone = some z → ended .reportsAbsent (.failed .noReport) false)

/-- A deferred step: reports for other zones and of levels 1 and 2 are ignored; a level of 3 or more gives the in-use
test; level 0 gives the pilot, or NO_REPORT where return reports are absent; at the limit it ends BUSY_SKIPPED; a result
asks for its line faults; an answered reservation goes to PILOT; outside a pilot step the absence and the return of
reports change only the availability. -/
def Obligations.DeferredStepsEnd : Prop :=
  ∀ (s : State) (z level : Nat),
    ((∀ n, s.sequencer.step ≠ .deferred z n) ∨ level = 1 ∨ level = 2 → Leaves (.holderReport z level) s s) ∧
    (∀ n, s.sequencer.step = .deferred z n → s.sequencer.latch = false → s.sequencer.overdue = 0 → SoundTables s →
      let e := s.tables.fields.zones.get z
      let report := if s.sequencer.reportsAvailable then s.zPort.reports.get z else none
      let result := classify e.low e.high report
      let ended (c : Instr) (r : LastResult) (zones : Tab ZoneResult 128) : Prop := ∃ t, Leaves c s t ∧
        t.faultUnit = (askLineFaults z r { s with sequencer := t.sequencer }).faultUnit ∧
        t = { s with
          faultUnit := t.faultUnit
          sequencer := { s.sequencer with
            step := .idle, pointer := (z + 1) % 128, scrubPointer := (s.sequencer.scrubPointer + 1) % 128
            zones := zones } }
      (3 ≤ level → ended (.holderReport z level) result
        (s.sequencer.zones.set z (countResult result (s.sequencer.zones.get z)))) ∧
      (3 ≤ level → z < 128 → ended (.reservationAnswer z level) result
        (s.sequencer.zones.set z (countResult result (s.sequencer.zones.get z)))) ∧
      (s.sequencer.reportsAvailable = false → ended (.holderReport z 0) (.failed .noReport)
        (s.sequencer.zones.set z (countResult (.failed .noReport) (s.sequencer.zones.get z)))) ∧
      (z < 128 → (∀ y < 128, HolderLaw s y) → s.arbiter.reserved = none → s.arbiter.holders.get z = .none →
        s.sequencer.reportsAvailable = true → ∃ t, Leaves (.holderReport z 0) s t ∧ Beside s t ∧
          t.arbiter.reserved = some z ∧ t.arbiter.holders = s.arbiter.holders ∧
          t.sequencer = { s.sequencer with step := .pilot z }) ∧
      (s.tables.fields.header.deferralLimit ≤ n → ended .deferralLimit .busySkipped
        (s.sequencer.zones.set z { s.sequencer.zones.get z with last := .busySkipped })) ∧
      (n < s.tables.fields.header.deferralLimit → Leaves .deferralLimit s s)) ∧
    ((∀ n, s.sequencer.step ≠ .deferred z n) → s.sequencer.step ≠ .idle → Leaves (.reservationAnswer z level) s s) ∧
    (∀ n, s.sequencer.step = .deferred z n → z < 128 → s.arbiter.reserved = some z →
      Leaves (.reservationAnswer z 0) s { s with sequencer := { s.sequencer with step := .pilot z } }) ∧
    (s.sequencer.step = .idle → z < 128 → level = 1 ∨ level = 2 →
      Leaves (.reservationAnswer z level) s
        { s with sequencer := { s.sequencer with step := .deferred z 0, pointer := z } }) ∧
    (s.sequencer.step.pilotZone = none →
      Leaves .reportsAbsent s { s with sequencer := { s.sequencer with reportsAvailable := false } }) ∧
    exec .reportsAvailable s = .next { s with sequencer := { s.sequencer with reportsAvailable := true } }

/-- A report is classified by the first condition of R139 that holds, against the window read from the zone's record. As
R140 says, a result other than BUSY_SKIPPED is recorded only after that reading and not at all where the record is
marked or becomes so, the step going on as after any result; recorded, it becomes the last result and moves the counts,
and the line faults of R141 are asked for; BUSY_SKIPPED is recorded without a reading and leaves the counts alone. -/
def Obligations.ReportsAreClassified : Prop :=
  (∀ low high : Nat, classify low high none = .failed .noReport) ∧
  (∀ (low high : Nat) (r : Report),
    classify low high (some r) =
      if r.valid = false then .failed .noReport
      else if r.ampFailed = true then .failed .ampFail
      else if r.earth = true then .failed .earth
      else if high < r.load then .failed .lineOpen
      else if r.load < low then .failed .lineShort
      else .normal) ∧
  ∀ (z : Nat) (report : Option Report) (s : State),
    (Sound s (zoneRef z) → z < 128 →
      let e := s.tables.fields.zones.get z
      let result := classify e.low e.high report
      (recordResult z report s).sequencer =
        { s.sequencer with zones := s.sequencer.zones.set z (countResult result (s.sequencer.zones.get z)) } ∧
      ((recordResult z report s).sequencer.zones.get z).last = result ∧
      recordResult z report s = askLineFaults z result
        { s with
          sequencer :=
            { s.sequencer with zones := s.sequencer.zones.set z (countResult result (s.sequencer.zones.get z)) } }) ∧
    (¬Sound s (zoneRef z) →
      (useZone z s).2 = false ∧ recordResult z report s = (useZone z s).1 ∧
      (recordResult z report s).sequencer = s.sequencer) ∧
    endStep z report s = closeStep z (recordResult z report s) ∧
    endPilot z report s = closeStep z (releaseReservation z (recordResult z report s)) ∧
    endBusySkipped z s = closeStep z
      { s with
        sequencer := { s.sequencer with
          zones := s.sequencer.zones.set z { s.sequencer.zones.get z with last := .busySkipped } } } ∧
    ∀ e : ZoneResult,
      countResult .normal e = { last := .normal, failures := 0, counted := none, normals := min (e.normals + 1) 2 } ∧
      ∀ k : FailKind, countResult (.failed k) e =
        { last := .failed k, counted := some k, normals := 0
          failures := if 0 < e.failures ∧ e.counted = some k then min (e.failures + 1) 2 else 1 }

/-- The counts of a zone and the line faults after a result: a second failure of one kind in a row asks for its fault, a
second NORMAL in a row asks for the removal of all five, and BUSY_SKIPPED leaves the counts alone. -/
def Obligations.ResultsAreCounted : Prop :=
  (∀ e : ZoneResult,
    countResult .normal e = { last := .normal, failures := 0, counted := none, normals := min (e.normals + 1) 2 } ∧
    countResult .busySkipped e = { e with last := .busySkipped } ∧
    ∀ k : FailKind,
      (0 < e.failures → e.counted = some k →
        countResult (.failed k) e =
          { last := .failed k, failures := min (e.failures + 1) 2, counted := some k, normals := 0 }) ∧
      (e.failures = 0 ∨ e.counted ≠ some k →
        countResult (.failed k) e = { last := .failed k, failures := 1, counted := some k, normals := 0 })) ∧
  ∀ (z : Nat) (s : State),
    (∀ k : FailKind, askLineFaults z (.failed k) s =
      if (s.sequencer.zones.get z).failures = 2 then addFault (lineFault z k) s else s) ∧
    ((s.sequencer.zones.get z).normals = 2 →
      askLineFaults z .normal s =
        [FaultId.lineOpen z, .lineShort z, .earth z, .ampFail z, .noReport z].foldl (fun t f => removeFault f t) s) ∧
    ((s.sequencer.zones.get z).normals ≠ 2 → askLineFaults z .normal s = s)

/-- SCRUB_LINE: a line of sound entries changes nothing; where a lone entry is not sound, its use with the effects of
its marking is all; in any case every entry of the line that is not sound ends marked, and the Sequencer is untouched.
The marking of a Zone Record leaves its zone with mask 0, trim 0, no ZONE_DISABLED and the holder that its winner gives,
and no other zone's mask or trim changed where no other entry is damaged (TABLE_CORRUPT asked for before ZONE_DISABLED
is removed, log 31). -/
def Obligations.ScrubLineMarksItsEntries : Prop :=
  (∀ (line : Nat) (s : State), line < 128 →
    ((∀ r ∈ scrubEntries line, Sound s r) → Leaves (.scrubLine line) s s) ∧
    (∀ r ∈ scrubEntries line, ¬Sound s r → (∀ x ∈ scrubEntries line, x ≠ r → Sound s x) →
      (r.table ≠ .zoneRecord → Leaves (.scrubLine line) s (useEntry r s).1) ∧
      (r.table = .zoneRecord → r = zoneRef line ∧ Leaves (.scrubLine line) s (useZone line s).1)) ∧
    ∃ t, Leaves (.scrubLine line) s t ∧ Beside s t ∧ t.sequencer = s.sequencer ∧
      ∀ r ∈ scrubEntries line, ¬Sound s r → t.marked r = true) ∧
  ∀ (z : Nat) (s : State), z < 128 →
    (Sound s (zoneRef z) → useZone z s = (s, true)) ∧
    (s.marked (zoneRef z) = true → useZone z s = (addFault (.tableCorrupt (zoneRef z)) s, false)) ∧
    (s.marked (zoneRef z) = false → s.passes (zoneRef z) = false →
      let t := (useZone z s).1
      (useZone z s).2 = false ∧ Beside s t ∧ t.marked (zoneRef z) = true ∧ t.arbiter.masks.get z = 0 ∧
      t.crosspoint.trims.get z = 0 ∧ (3 ≤ s.arbiter.masks.get z → t.listed (.zoneDisabled z) = false) ∧
      ((∀ y < 128, HolderLaw s y) → HolderLaw t z) ∧
      ((∀ r, r ≠ zoneRef z → Sound s r) →
        (∀ y < 128, y ≠ z → t.arbiter.masks.get y = s.arbiter.masks.get y ∧
          t.crosspoint.trims.get y = s.crosspoint.trims.get y) ∧
        (s.faultUnit.list.length < 64 →
          let asked := s.faultUnit.add (.tableCorrupt (zoneRef z)) s.timer.seconds
          t.faultUnit =
            if 3 ≤ s.arbiter.masks.get z then asked.remove (.zoneDisabled z) s.timer.seconds else asked)))

/-! ### The edit, the install and RESTART -/

/-- EDIT BEGIN is refused EDIT_BUSY and INCIDENT_ACTIVE, else opens an edit with the lease 30 on a copy of the image, in
which an entry that is not sound has its table's power-on contents and in the image in effect ends marked; a write is
refused in the order of R162, and otherwise changes the staging image and the lease alone. WRITE LINE takes its four
entries into the aligned group of four from the index on, wrapping, leaves out the positions beyond the table's end, and
refuses the whole at the first position whose contents are out of range. -/
def Obligations.EditsAreOpenedAndWritten : Prop :=
  ∀ (q : Sender) (s : State), Heard q .configure s →
    let u := lookedUp q s
    let staged (e : Edit) : State := { u with tables := { u.tables with edit := some e } }
    let quiet := s.engine.incidents = [] ∧ s.engine.general = none
    (s.tables.edit ≠ none → Leaves (.editBegin q) s (answered q (.response 7 .editBusy []) u)) ∧
    (s.tables.edit = none → ¬quiet → Leaves (.editBegin q) s (answered q (.response 7 .incidentActive []) u)) ∧
    (s.tables.edit = none → quiet →
      (∃ t e, Leaves (.editBegin q) s t ∧ t.tables.edit = some e ∧ e.owner = q.station ∧ e.lease = 30 ∧
        e.phase = .opened ∧ t.tables.fields = s.tables.fields ∧ AnswerQueued q (.response 7 .ok []) t ∧
        (∀ r, r.index < tableEntries r.table →
          (Sound s r → e.staging.entry r = s.tables.fields.entry r) ∧
          (¬Sound s r → e.staging.entry r = Entry.powerOn r.table ∧ t.marked r = true)) ∧
        ∀ z < 128, s.marked (zoneRef z) = false → s.passes (zoneRef z) = false →
          t.arbiter.masks.get z = 0 ∧ t.crosspoint.trims.get z = 0) ∧
      (SoundTables s → Leaves (.editBegin q) s (answered q (.response 7 .ok [])
        (staged { owner := q.station, lease := 30, staging := s.tables.fields, phase := .opened })))) ∧
    ∀ (table index : Nat) (contents : List Byte),
      let both (status : Status) : Prop :=
        Leaves (.writeEntry q table index contents) s (answered q (.response 8 status []) u) ∧
        Leaves (.writeLine q table index contents) s (answered q (.response 9 status []) u)
      (9 ≤ table → both .badTable) ∧
      ∀ t, tableOfNumber table = some t →
        (tableEntries t ≤ index → both .badIndex) ∧
        (index < tableEntries t → s.tables.edit = none → both .noEdit) ∧
        ∀ e, index < tableEntries t → s.tables.edit = some e →
          (e.owner ≠ q.station → both .notOwner) ∧
          (e.owner = q.station → e.phase ≠ .opened → both .editBusy) ∧
          (e.owner = q.station → e.phase = .opened →
            (readEntry t contents = none →
              Leaves (.writeEntry q table index contents) s
                (answered q (.response 8 .badValue []) (staged { e with lease := 30 }))) ∧
            (∀ x, readEntry t contents = some x →
              Leaves (.writeEntry q table index contents) s (answered q (.response 8 .ok [])
                (staged { e with lease := 30, staging := e.staging.setEntry index x }))) ∧
            let given : List (Nat × List Byte) :=
              [(index, contents.take 12), (index / 4 * 4 + (index + 1) % 4, (contents.drop 12).take 12),
                (index / 4 * 4 + (index + 2) % 4, (contents.drop 24).take 12),
                (index / 4 * 4 + (index + 3) % 4, (contents.drop 36).take 12)].filter
                  fun x => decide (x.1 < tableEntries t)
            (∀ before x after, given = before ++ x :: after → (∀ y ∈ before, readEntry t y.2 ≠ none) →
              readEntry t x.2 = none →
              Leaves (.writeLine q table index contents) s
                (answered q (.response 9 .badValue (bytes2 x.1)) (staged { e with lease := 30 }))) ∧
            ((∀ x ∈ given, readEntry t x.2 ≠ none) →
              Leaves (.writeLine q table index contents) s (answered q (.response 9 .ok [])
                (staged { e with
                  lease := 30
                  staging := given.foldl (fun image x =>
                    match readEntry t x.2 with
                    | some y => image.setEntry x.1 y
                    | none => image) e.staging }))))

/-- EDIT COMMIT, VALIDATION_END and EDIT CANCEL: a commit from OPEN reloads the lease, validates for 32 frame events and
keeps its place; the validation's first failure returns the edit to OPEN, else the install is awaited; a cancel closes
the edit, the commit of a VALIDATING one being answered NO_EDIT first. Validation finds the first failure of the staging
image: the Storey Table, the Zone Records, the Detection Map, the chains plan by plan and the Station Authority Table,
in that order and each in ascending index (R11 to R13, R16, R18, R22). -/
def Obligations.EditsAreCommittedAndCancelled : Prop :=
  (∀ (q : Sender) (s : State), Heard q .configure s →
    let u := lookedUp q s
    let refused (c : Instr) (type : Nat) (status : Status) : Prop :=
      Leaves c s (answered q (.response type status []) u)
    (s.tables.edit = none → refused (.editCommit q) 10 .noEdit ∧ refused (.editCancel q) 11 .noEdit) ∧
    ∀ e, s.tables.edit = some e →
      (e.owner ≠ q.station → refused (.editCommit q) 10 .notOwner ∧ refused (.editCancel q) 11 .notOwner) ∧
      (e.owner = q.station → e.phase ≠ .opened → refused (.editCommit q) 10 .editBusy) ∧
      (e.owner = q.station → e.phase = .opened →
        Leaves (.editCommit q) s
          { u with
            tables := { u.tables with edit := some { e with lease := 30, phase := .validating 32 } }
            router := { u.router with places := u.router.places ++ [.reserved .commit q] } } ∧
        Leaves (.editCancel q) s
          (answered q (.response 11 .ok []) { u with tables := { u.tables with edit := none } })) ∧
      (e.owner = q.station → e.phase ≠ .opened →
        Leaves (.editCancel q) s
          (answered q (.response 11 .ok [])
            (answerCommit .noEdit [] { u with tables := { u.tables with edit := none } })))) ∧
  (∀ s : State,
    ((∀ e, s.tables.edit = some e → e.phase ≠ .validating 0) → exec .validationEnd s = .next s) ∧
    ∀ e, s.tables.edit = some e → e.phase = .validating 0 →
      (∀ f, validate e.staging = some f →
        exec .validationEnd s = .next
          (answerCommit .validation (failureData f)
            { s with tables := { s.tables with edit := some { e with phase := .opened } } })) ∧
      (validate e.staging = none →
        exec .validationEnd s = .next
          { s with tables := { s.tables with edit := some { e with phase := .passed } } })) ∧
  ∀ im : Image,
    let storeys := (List.range 96).findSome? (storeyFailure im)
    let zones := (List.range 128).findSome? (zoneFailure im)
    let detections := (List.range 512).findSome? (detectionFailure im)
    let plans := (List.range 16).findSome? (planFailure im)
    let authorities := (List.range 32).findSome? (authorityFailure im)
    checkStoreys im.header.storeyCount 0 none im.storeys.items = storeys ∧
    checkZones 0 im.zones.items = zones ∧
    checkDetections im.header.storeyCount 0 im.detections.items = detections ∧
    (∀ first, walkChain im.steps 32 [] 0 first = (List.range 32).findSome? (chainFailure im.steps first)) ∧
    checkPlans im.steps im.plans.items = plans ∧
    checkAuthorities 0 false none im.authorities.items = authorities ∧
    validate im = (((storeys.or zones).or detections).or plans).or authorities

/-- INSTALL: the staging image passed becomes the in-effect image with fresh check codes and clear marks, no
TABLE_CORRUPT stays listed, every mask and trim takes its base value, the edit is closed and the commit answered OK;
else nothing happens. Z_FRAME_BUILD at a passed edit makes the install first and builds its frame from what that
leaves. -/
def Obligations.InstallReplacesTheImage : Prop :=
  ∀ s : State,
    ((∀ e, s.tables.edit = some e → e.phase ≠ .passed) → Leaves .install s s) ∧
    ∀ e, s.tables.edit = some e → e.phase = .passed → ∃ t, Leaves .install s t ∧
      t.tables = { fields := e.staging, coded := e.staging, codeFlips := [], marks := [], edit := none } ∧
      (∀ r, t.listed (.tableCorrupt r) = false) ∧
      (∀ z < 128, t.arbiter.masks.get z = (e.staging.zones.get z).baseMask ∧
        t.crosspoint.trims.get z = (e.staging.zones.get z).baseTrim) ∧
      t.engine = s.engine ∧ t.arbiter.planClaims = s.arbiter.planClaims ∧ t.timer = s.timer ∧ t.sPort = s.sPort ∧
      t.zPort = s.zPort ∧ exec .zFrameBuild s = exec .zFrameBuild t ∧
      ∀ before q after, s.router.places = before ++ .reserved .commit q :: after →
        (∀ x, .reserved .commit x ∉ before) →
        t.router.places = before ++ .filled (answerTo q s.router.address (.response 10 .ok [])) :: after

/-- LEASE_EXPIRY closes an OPEN edit whose lease stands at 0 (log 6) and BREAK_NOTICE any edit, each with its
EDIT_ENDED; a VALIDATING commit is answered NO_EDIT; with no edit neither has an effect. -/
def Obligations.EditsEndUnasked : Prop :=
  ∀ s : State,
    let closed (how : EditEnd) : State :=
      { s with
        tables := { s.tables with edit := none }, faultUnit := FaultUnit.take (.editEnded how) s.faultUnit }
    ((∀ e, s.tables.edit = some e → e.lease ≠ 0 ∨ e.phase ≠ .opened) → exec .leaseExpiry s = .next s) ∧
    (∀ e, s.tables.edit = some e → e.lease = 0 → e.phase = .opened →
      exec .leaseExpiry s = .next (closed .expired)) ∧
    (s.tables.edit = none → exec .breakNotice s = .next s) ∧
    ∀ e, s.tables.edit = some e →
      (e.phase = .opened → exec .breakNotice s = .next (closed .broken)) ∧
      (e.phase ≠ .opened → exec .breakNotice s = .next (answerCommit .noEdit [] (closed .broken)))

/-- RESTART is refused while an incident is listed or GENERAL is set; else every claim, plan claim, holder, all-clear
timer, reservation, edit and step is gone, a VALIDATING commit being answered NO_EDIT before the OK, masks and trims are
at base, the Fault List shows the conditions still true, TABLE_CORRUPT of every marked entry among them, and the
notifications and confirm requests are gone; the tables with their check codes and marks, the binding, the queues, the
counters, the timer, the links and channel presence are kept. -/
def Obligations.RestartStartsAfresh : Prop :=
  ∀ (q : Sender) (s : State), Heard q .configure s →
    let u := lookedUp q s
    (s.engine.incidents ≠ [] ∨ s.engine.general ≠ none →
      Leaves (.restart q) s (answered q (.response 23 .incidentActive []) u)) ∧
    (s.engine.incidents = [] → s.engine.general = none → ∃ t, Leaves (.restart q) s t ∧
      (∀ k < 16, t.arbiter.claims.get k = none) ∧ t.arbiter.reserved = none ∧ t.tables.edit = none ∧
      t.engine.incidents = [] ∧ t.engine.general = none ∧
      (∀ z < 128, t.engine.allClear.get z = 0) ∧ t.engine.idCounter = s.engine.idCounter ∧
      (DemandLaw s.engine → PlanClaimLaw s →
        ∀ z < 128, t.arbiter.planClaims.get z = none ∧ t.arbiter.holders.get z = .none ∧
          ((∀ y < 128, s.arbiter.holders.get y = .none → s.crosspoint.records.get y = .none) →
            t.crosspoint.records.get z = .none)) ∧
      t.sequencer = { (State.reset).sequencer with reportsAvailable := s.sequencer.reportsAvailable } ∧
      t.faultUnit.queue = [] ∧ t.faultUnit.overrun = false ∧ t.faultUnit.enabled = s.faultUnit.enabled ∧
      (s.faultUnit.enabled = false → t.faultUnit.sequence = s.faultUnit.sequence) ∧
      (∃ places, t.router =
          { s.router with
            confirms := []
            places := places ++ [.filled (answerTo q s.router.address (.response 23 .ok []))] } ∧
        ((∀ e, s.tables.edit = some e → e.phase = .opened) → places = s.router.places) ∧
        ∀ e, s.tables.edit = some e → e.phase ≠ .opened →
          ((∀ x, .reserved .commit x ∉ s.router.places) → places = s.router.places) ∧
          ∀ before x after, s.router.places = before ++ .reserved .commit x :: after →
            (∀ y, .reserved .commit y ∉ before) →
            places = before ++ .filled (answerTo x s.router.address (.response 10 .noEdit [])) :: after) ∧
      t.timer = s.timer ∧ t.sPort = s.sPort ∧ t.zPort = s.zPort ∧ t.tables.fields = s.tables.fields ∧
      t.tables.coded = s.tables.coded ∧ t.tables.codeFlips = s.tables.codeFlips ∧
      (∀ r, s.marked r = true → t.marked r = true) ∧
      (∀ r, t.marked r = true → s.marked r = true ∨ s.passes r = false) ∧
      t.arbiter.arrivalCounter = s.arbiter.arrivalCounter ∧ t.arbiter.onAirCounter = s.arbiter.onAirCounter ∧
      t.arbiter.confirmCounter = s.arbiter.confirmCounter ∧
      t.crosspoint.presence = s.crosspoint.presence ∧ t.crosspoint.runs = s.crosspoint.runs ∧
      t.crosspoint.samples = s.crosspoint.samples ∧
      (∀ z < 128, (t.marked (zoneRef z) = true ↔ ¬Sound s (zoneRef z)) ∧
        t.arbiter.masks.get z = (if t.marked (zoneRef z) then 0 else (s.tables.fields.zones.get z).baseMask) ∧
        t.crosspoint.trims.get z = if t.marked (zoneRef z) then 0 else (s.tables.fields.zones.get z).baseTrim) ∧
      let standing : List FaultId :=
        (if s.zPort.link = .down ∧ s.zPort.established = true then [.zLink] else []) ++
          ((List.range 32).filter fun c => decide (s.crosspoint.presence.get c = .lost)).map FaultId.sourceLost ++
          ((List.range 128).filter fun z => decide (3 ≤ t.arbiter.masks.get z)).map FaultId.zoneDisabled ++
          [TableName.header, .storey, .zoneRecord, .detection, .plan, .step, .translation, .defaultChannel,
            .authority].flatMap fun table =>
              ((List.range (tableEntries table)).filter fun i => t.marked { table := table, index := i }).map fun i =>
                FaultId.tableCorrupt { table := table, index := i }
      t.faultUnit.list = (standing.take 64).map (fun f => { fault := f, stamp := s.timer.seconds }) ∧
      t.faultUnit.overflow = decide (64 < standing.length))

end
end

