-- ==== Sys2Proof/Laws/State.lean ====
section
/-! SUPPORT. One lemma per field and update of State, each true by rfl. -/

namespace Sys2Proof.Machine

variable (s : State)

section
variable (f : FrameTimer → FrameTimer)
@[simp] theorem State.onTimer_timer : (s.onTimer f).timer = f s.timer := rfl
@[simp] theorem State.onTimer_sPort : (s.onTimer f).sPort = s.sPort := rfl
@[simp] theorem State.onTimer_zPort : (s.onTimer f).zPort = s.zPort := rfl
@[simp] theorem State.onTimer_router : (s.onTimer f).router = s.router := rfl
@[simp] theorem State.onTimer_tables : (s.onTimer f).tables = s.tables := rfl
@[simp] theorem State.onTimer_engine : (s.onTimer f).engine = s.engine := rfl
@[simp] theorem State.onTimer_arbiter : (s.onTimer f).arbiter = s.arbiter := rfl
@[simp] theorem State.onTimer_crosspoint : (s.onTimer f).crosspoint = s.crosspoint := rfl
@[simp] theorem State.onTimer_sequencer : (s.onTimer f).sequencer = s.sequencer := rfl
@[simp] theorem State.onTimer_mail : (s.onTimer f).mail = s.mail := rfl
@[simp] theorem State.onTimer_faultUnit : (s.onTimer f).faultUnit = s.faultUnit := rfl
@[simp] theorem State.onTimer_pending : (s.onTimer f).pending = s.pending := rfl
end

section
variable (f : SPort → SPort)
@[simp] theorem State.onSPort_timer : (s.onSPort f).timer = s.timer := rfl
@[simp] theorem State.onSPort_sPort : (s.onSPort f).sPort = f s.sPort := rfl
@[simp] theorem State.onSPort_zPort : (s.onSPort f).zPort = s.zPort := rfl
@[simp] theorem State.onSPort_router : (s.onSPort f).router = s.router := rfl
@[simp] theorem State.onSPort_tables : (s.onSPort f).tables = s.tables := rfl
@[simp] theorem State.onSPort_engine : (s.onSPort f).engine = s.engine := rfl
@[simp] theorem State.onSPort_arbiter : (s.onSPort f).arbiter = s.arbiter := rfl
@[simp] theorem State.onSPort_crosspoint : (s.onSPort f).crosspoint = s.crosspoint := rfl
@[simp] theorem State.onSPort_sequencer : (s.onSPort f).sequencer = s.sequencer := rfl
@[simp] theorem State.onSPort_mail : (s.onSPort f).mail = s.mail := rfl
@[simp] theorem State.onSPort_faultUnit : (s.onSPort f).faultUnit = s.faultUnit := rfl
@[simp] theorem State.onSPort_pending : (s.onSPort f).pending = s.pending := rfl
end

section
variable (f : ZPort → ZPort)
@[simp] theorem State.onZPort_timer : (s.onZPort f).timer = s.timer := rfl
@[simp] theorem State.onZPort_sPort : (s.onZPort f).sPort = s.sPort := rfl
@[simp] theorem State.onZPort_zPort : (s.onZPort f).zPort = f s.zPort := rfl
@[simp] theorem State.onZPort_router : (s.onZPort f).router = s.router := rfl
@[simp] theorem State.onZPort_tables : (s.onZPort f).tables = s.tables := rfl
@[simp] theorem State.onZPort_engine : (s.onZPort f).engine = s.engine := rfl
@[simp] theorem State.onZPort_arbiter : (s.onZPort f).arbiter = s.arbiter := rfl
@[simp] theorem State.onZPort_crosspoint : (s.onZPort f).crosspoint = s.crosspoint := rfl
@[simp] theorem State.onZPort_sequencer : (s.onZPort f).sequencer = s.sequencer := rfl
@[simp] theorem State.onZPort_mail : (s.onZPort f).mail = s.mail := rfl
@[simp] theorem State.onZPort_faultUnit : (s.onZPort f).faultUnit = s.faultUnit := rfl
@[simp] theorem State.onZPort_pending : (s.onZPort f).pending = s.pending := rfl
end

section
variable (f : Router → Router)
@[simp] theorem State.onRouter_timer : (s.onRouter f).timer = s.timer := rfl
@[simp] theorem State.onRouter_sPort : (s.onRouter f).sPort = s.sPort := rfl
@[simp] theorem State.onRouter_zPort : (s.onRouter f).zPort = s.zPort := rfl
@[simp] theorem State.onRouter_router : (s.onRouter f).router = f s.router := rfl
@[simp] theorem State.onRouter_tables : (s.onRouter f).tables = s.tables := rfl
@[simp] theorem State.onRouter_engine : (s.onRouter f).engine = s.engine := rfl
@[simp] theorem State.onRouter_arbiter : (s.onRouter f).arbiter = s.arbiter := rfl
@[simp] theorem State.onRouter_crosspoint : (s.onRouter f).crosspoint = s.crosspoint := rfl
@[simp] theorem State.onRouter_sequencer : (s.onRouter f).sequencer = s.sequencer := rfl
@[simp] theorem State.onRouter_mail : (s.onRouter f).mail = s.mail := rfl
@[simp] theorem State.onRouter_faultUnit : (s.onRouter f).faultUnit = s.faultUnit := rfl
@[simp] theorem State.onRouter_pending : (s.onRouter f).pending = s.pending := rfl
end

section
variable (f : TableStore → TableStore)
@[simp] theorem State.onTables_timer : (s.onTables f).timer = s.timer := rfl
@[simp] theorem State.onTables_sPort : (s.onTables f).sPort = s.sPort := rfl
@[simp] theorem State.onTables_zPort : (s.onTables f).zPort = s.zPort := rfl
@[simp] theorem State.onTables_router : (s.onTables f).router = s.router := rfl
@[simp] theorem State.onTables_tables : (s.onTables f).tables = f s.tables := rfl
@[simp] theorem State.onTables_engine : (s.onTables f).engine = s.engine := rfl
@[simp] theorem State.onTables_arbiter : (s.onTables f).arbiter = s.arbiter := rfl
@[simp] theorem State.onTables_crosspoint : (s.onTables f).crosspoint = s.crosspoint := rfl
@[simp] theorem State.onTables_sequencer : (s.onTables f).sequencer = s.sequencer := rfl
@[simp] theorem State.onTables_mail : (s.onTables f).mail = s.mail := rfl
@[simp] theorem State.onTables_faultUnit : (s.onTables f).faultUnit = s.faultUnit := rfl
@[simp] theorem State.onTables_pending : (s.onTables f).pending = s.pending := rfl
end

section
variable (f : Engine → Engine)
@[simp] theorem State.onEngine_timer : (s.onEngine f).timer = s.timer := rfl
@[simp] theorem State.onEngine_sPort : (s.onEngine f).sPort = s.sPort := rfl
@[simp] theorem State.onEngine_zPort : (s.onEngine f).zPort = s.zPort := rfl
@[simp] theorem State.onEngine_router : (s.onEngine f).router = s.router := rfl
@[simp] theorem State.onEngine_tables : (s.onEngine f).tables = s.tables := rfl
@[simp] theorem State.onEngine_engine : (s.onEngine f).engine = f s.engine := rfl
@[simp] theorem State.onEngine_arbiter : (s.onEngine f).arbiter = s.arbiter := rfl
@[simp] theorem State.onEngine_crosspoint : (s.onEngine f).crosspoint = s.crosspoint := rfl
@[simp] theorem State.onEngine_sequencer : (s.onEngine f).sequencer = s.sequencer := rfl
@[simp] theorem State.onEngine_mail : (s.onEngine f).mail = s.mail := rfl
@[simp] theorem State.onEngine_faultUnit : (s.onEngine f).faultUnit = s.faultUnit := rfl
@[simp] theorem State.onEngine_pending : (s.onEngine f).pending = s.pending := rfl
end

section
variable (f : Arbiter → Arbiter)
@[simp] theorem State.onArbiter_timer : (s.onArbiter f).timer = s.timer := rfl
@[simp] theorem State.onArbiter_sPort : (s.onArbiter f).sPort = s.sPort := rfl
@[simp] theorem State.onArbiter_zPort : (s.onArbiter f).zPort = s.zPort := rfl
@[simp] theorem State.onArbiter_router : (s.onArbiter f).router = s.router := rfl
@[simp] theorem State.onArbiter_tables : (s.onArbiter f).tables = s.tables := rfl
@[simp] theorem State.onArbiter_engine : (s.onArbiter f).engine = s.engine := rfl
@[simp] theorem State.onArbiter_arbiter : (s.onArbiter f).arbiter = f s.arbiter := rfl
@[simp] theorem State.onArbiter_crosspoint : (s.onArbiter f).crosspoint = s.crosspoint := rfl
@[simp] theorem State.onArbiter_sequencer : (s.onArbiter f).sequencer = s.sequencer := rfl
@[simp] theorem State.onArbiter_mail : (s.onArbiter f).mail = s.mail := rfl
@[simp] theorem State.onArbiter_faultUnit : (s.onArbiter f).faultUnit = s.faultUnit := rfl
@[simp] theorem State.onArbiter_pending : (s.onArbiter f).pending = s.pending := rfl
end

section
variable (f : Crosspoint → Crosspoint)
@[simp] theorem State.onCrosspoint_timer : (s.onCrosspoint f).timer = s.timer := rfl
@[simp] theorem State.onCrosspoint_sPort : (s.onCrosspoint f).sPort = s.sPort := rfl
@[simp] theorem State.onCrosspoint_zPort : (s.onCrosspoint f).zPort = s.zPort := rfl
@[simp] theorem State.onCrosspoint_router : (s.onCrosspoint f).router = s.router := rfl
@[simp] theorem State.onCrosspoint_tables : (s.onCrosspoint f).tables = s.tables := rfl
@[simp] theorem State.onCrosspoint_engine : (s.onCrosspoint f).engine = s.engine := rfl
@[simp] theorem State.onCrosspoint_arbiter : (s.onCrosspoint f).arbiter = s.arbiter := rfl
@[simp] theorem State.onCrosspoint_crosspoint : (s.onCrosspoint f).crosspoint = f s.crosspoint := rfl
@[simp] theorem State.onCrosspoint_sequencer : (s.onCrosspoint f).sequencer = s.sequencer := rfl
@[simp] theorem State.onCrosspoint_mail : (s.onCrosspoint f).mail = s.mail := rfl
@[simp] theorem State.onCrosspoint_faultUnit : (s.onCrosspoint f).faultUnit = s.faultUnit := rfl
@[simp] theorem State.onCrosspoint_pending : (s.onCrosspoint f).pending = s.pending := rfl
end

section
variable (f : Sequencer → Sequencer)
@[simp] theorem State.onSequencer_timer : (s.onSequencer f).timer = s.timer := rfl
@[simp] theorem State.onSequencer_sPort : (s.onSequencer f).sPort = s.sPort := rfl
@[simp] theorem State.onSequencer_zPort : (s.onSequencer f).zPort = s.zPort := rfl
@[simp] theorem State.onSequencer_router : (s.onSequencer f).router = s.router := rfl
@[simp] theorem State.onSequencer_tables : (s.onSequencer f).tables = s.tables := rfl
@[simp] theorem State.onSequencer_engine : (s.onSequencer f).engine = s.engine := rfl
@[simp] theorem State.onSequencer_arbiter : (s.onSequencer f).arbiter = s.arbiter := rfl
@[simp] theorem State.onSequencer_crosspoint : (s.onSequencer f).crosspoint = s.crosspoint := rfl
@[simp] theorem State.onSequencer_sequencer : (s.onSequencer f).sequencer = f s.sequencer := rfl
@[simp] theorem State.onSequencer_mail : (s.onSequencer f).mail = s.mail := rfl
@[simp] theorem State.onSequencer_faultUnit : (s.onSequencer f).faultUnit = s.faultUnit := rfl
@[simp] theorem State.onSequencer_pending : (s.onSequencer f).pending = s.pending := rfl
end

section
variable (f : FaultUnit → FaultUnit)
@[simp] theorem State.onFaultUnit_timer : (s.onFaultUnit f).timer = s.timer := rfl
@[simp] theorem State.onFaultUnit_sPort : (s.onFaultUnit f).sPort = s.sPort := rfl
@[simp] theorem State.onFaultUnit_zPort : (s.onFaultUnit f).zPort = s.zPort := rfl
@[simp] theorem State.onFaultUnit_router : (s.onFaultUnit f).router = s.router := rfl
@[simp] theorem State.onFaultUnit_tables : (s.onFaultUnit f).tables = s.tables := rfl
@[simp] theorem State.onFaultUnit_engine : (s.onFaultUnit f).engine = s.engine := rfl
@[simp] theorem State.onFaultUnit_arbiter : (s.onFaultUnit f).arbiter = s.arbiter := rfl
@[simp] theorem State.onFaultUnit_crosspoint : (s.onFaultUnit f).crosspoint = s.crosspoint := rfl
@[simp] theorem State.onFaultUnit_sequencer : (s.onFaultUnit f).sequencer = s.sequencer := rfl
@[simp] theorem State.onFaultUnit_mail : (s.onFaultUnit f).mail = s.mail := rfl
@[simp] theorem State.onFaultUnit_faultUnit : (s.onFaultUnit f).faultUnit = f s.faultUnit := rfl
@[simp] theorem State.onFaultUnit_pending : (s.onFaultUnit f).pending = s.pending := rfl
end

@[simp] theorem State.send_timer (m : SequencerMail) : (s.send m).timer = s.timer := rfl
@[simp] theorem State.send_sPort (m : SequencerMail) : (s.send m).sPort = s.sPort := rfl
@[simp] theorem State.send_zPort (m : SequencerMail) : (s.send m).zPort = s.zPort := rfl
@[simp] theorem State.send_router (m : SequencerMail) : (s.send m).router = s.router := rfl
@[simp] theorem State.send_tables (m : SequencerMail) : (s.send m).tables = s.tables := rfl
@[simp] theorem State.send_engine (m : SequencerMail) : (s.send m).engine = s.engine := rfl
@[simp] theorem State.send_arbiter (m : SequencerMail) : (s.send m).arbiter = s.arbiter := rfl
@[simp] theorem State.send_crosspoint (m : SequencerMail) : (s.send m).crosspoint = s.crosspoint := rfl
@[simp] theorem State.send_sequencer (m : SequencerMail) : (s.send m).sequencer = s.sequencer := rfl
@[simp] theorem State.send_mail (m : SequencerMail) : (s.send m).mail = s.mail ++ [m] := rfl
@[simp] theorem State.send_faultUnit (m : SequencerMail) : (s.send m).faultUnit = s.faultUnit := rfl
@[simp] theorem State.send_pending (m : SequencerMail) : (s.send m).pending = s.pending := rfl

end Sys2Proof.Machine
end

