-- ==== Sys2Proof/Laws/Beside.lean ====
section
/-! SUPPORT. For each operation of the Zone Arbiter, of the Supervision Sequencer and of the use of entries: what it leaves as
it was (Beside), and that it changes the Fault Unit by requests only (FaultSteps). -/

namespace Sys2Proof.Machine

/-- The second Fault Unit comes from the first by requests: notifications handed over, faults added, faults removed. -/
inductive FaultSteps (u : FaultUnit) : FaultUnit → Prop where
  | refl : FaultSteps u u
  | take {v : FaultUnit} (n : Notice) : FaultSteps u v → FaultSteps u (FaultUnit.take n v)
  | add {v : FaultUnit} (f : FaultId) (k : Nat) : FaultSteps u v → FaultSteps u (FaultUnit.add f k v)
  | remove {v : FaultUnit} (f : FaultId) (k : Nat) : FaultSteps u v → FaultSteps u (FaultUnit.remove f k v)

theorem FaultSteps.trans {u v w : FaultUnit} (h : FaultSteps u v) (g : FaultSteps v w) : FaultSteps u w := by
  induction g with
  | refl => exact h
  | take n _ ih => exact .take n ih
  | add f k _ ih => exact .add f k ih
  | remove f k _ ih => exact .remove f k ih

/-- A property that every request keeps is kept. -/
theorem FaultSteps.keeps {u v : FaultUnit} (P : FaultUnit → Prop) (ht : ∀ n w, P w → P (FaultUnit.take n w))
    (ha : ∀ f k w, P w → P (FaultUnit.add f k w)) (hr : ∀ f k w, P w → P (FaultUnit.remove f k w))
    (h : FaultSteps u v) (hu : P u) : P v := by
  induction h with
  | refl => exact hu
  | take n _ ih => exact ht n _ ih
  | add f k _ ih => exact ha f k _ ih
  | remove f k _ ih => exact hr f k _ ih

/-- The work of the arbiter, of the sequencer and of uses: beside it all stays, and the Fault Unit changes by requests. -/
structure Worked (s t : State) : Prop extends Beside s t where
  faults : FaultSteps s.faultUnit t.faultUnit

theorem FaultUnit.take_enabled (n : Notice) (u : FaultUnit) : (FaultUnit.take n u).enabled = u.enabled := by
  unfold FaultUnit.take FaultUnit.enter; split <;> (try split) <;> rfl

theorem FaultUnit.add_enabled (f : FaultId) (k : Nat) (u : FaultUnit) : (FaultUnit.add f k u).enabled = u.enabled := by
  unfold FaultUnit.add; split
  · rfl
  · split
    · exact FaultUnit.take_enabled _ _
    · rfl

theorem FaultUnit.remove_enabled (f : FaultId) (k : Nat) (u : FaultUnit) :
    (FaultUnit.remove f k u).enabled = u.enabled := by
  unfold FaultUnit.remove; split
  · exact FaultUnit.take_enabled _ _
  · rfl

theorem FaultSteps.enabled {u v : FaultUnit} (h : FaultSteps u v) : v.enabled = u.enabled :=
  h.keeps (fun w => w.enabled = u.enabled) (fun n w => (FaultUnit.take_enabled n w).trans)
    (fun f k w => (FaultUnit.add_enabled f k w).trans) (fun f k w => (FaultUnit.remove_enabled f k w).trans) rfl

namespace Worked

theorem refl (s : State) : Worked s s where
  timer := rfl
  sPort := rfl
  zPort := rfl
  engine := rfl
  pending := rfl
  fields := rfl
  coded := rfl
  codeFlips := rfl
  edit := rfl
  router := rfl
  presence := rfl
  runs := rfl
  samples := rfl
  enabled := rfl
  marks := fun _ h => h
  marksOnly := fun _ h => .inl h
  faults := .refl

theorem trans {s t u : State} (h : Worked s t) (g : Worked t u) : Worked s u where
  timer := g.timer.trans h.timer
  sPort := g.sPort.trans h.sPort
  zPort := g.zPort.trans h.zPort
  engine := g.engine.trans h.engine
  pending := g.pending.trans h.pending
  fields := g.fields.trans h.fields
  coded := g.coded.trans h.coded
  codeFlips := g.codeFlips.trans h.codeFlips
  edit := g.edit.trans h.edit
  router := by rw [← h.router, ← g.router]
  presence := g.presence.trans h.presence
  runs := g.runs.trans h.runs
  samples := g.samples.trans h.samples
  enabled := g.enabled.trans h.enabled
  marks := fun r hr => g.marks r (h.marks r hr)
  marksOnly := fun r hr => (g.marksOnly r hr).elim (h.marksOnly r) fun ht => .inr <| by
    unfold State.passes at ht ⊢
    rw [h.fields, h.coded, h.codeFlips] at ht
    exact ht
  faults := h.faults.trans g.faults

theorem foldl {α : Type} {f : State → α → State} (h : ∀ t a, Worked t (f t a)) (l : List α) (s : State) :
    Worked s (l.foldl f s) := by
  induction l generalizing s with
  | nil => exact refl s
  | cons a l ih => exact (h s a).trans (ih (f s a))

/-! ### The updates -/

theorem onArbiter (s : State) (f : Arbiter → Arbiter) : Worked s (s.onArbiter f) := { refl s with }

theorem onSequencer (s : State) (f : Sequencer → Sequencer) : Worked s (s.onSequencer f) := { refl s with }

theorem send (s : State) (m : SequencerMail) : Worked s (s.send m) := { refl s with }

theorem onFaultUnit (s : State) {f : FaultUnit → FaultUnit} (h : FaultSteps s.faultUnit (f s.faultUnit)) :
    Worked s (s.onFaultUnit f) := { refl s with faults := h, enabled := h.enabled }

theorem notify (n : Notice) (s : State) : Worked s (notify n s) := onFaultUnit s (.take n .refl)

theorem addFault (f : FaultId) (s : State) : Worked s (addFault f s) := onFaultUnit s (.add f _ .refl)

theorem removeFault (f : FaultId) (s : State) : Worked s (removeFault f s) := onFaultUnit s (.remove f _ .refl)

theorem setTrimOf (z v : Nat) (s : State) : Worked s (setTrimOf z v s) := { refl s with }

theorem writeRecord (z : Nat) (h : Holder) (s : State) : Worked s (writeRecord z h s) := { refl s with }

theorem queueConfirm (c : ConfirmRequest) (s : State) : Worked s (queueConfirm c s) := { refl s with }

end Worked

theorem mem_insertMark (r q : EntryRef) (l : List EntryRef) : q ∈ insertMark r l ↔ q = r ∨ q ∈ l := by
  induction l with
  | nil => simp [insertMark]
  | cons a l ih =>
    unfold insertMark
    split
    · rename_i h; subst h; simp
    · split
      · simp
      · simp only [List.mem_cons, ih]; exact or_left_comm

theorem marked_setMark (s : State) (r q : EntryRef) :
    (s.setMark r).marked q = (decide (q = r) || s.marked q) := by
  simp [State.setMark, State.marked, State.onTables, mem_insertMark, Bool.decide_or]

theorem Worked.setMark (s : State) (r : EntryRef) (hr : s.passes r = false) : Worked s (s.setMark r) :=
  { Worked.refl s with
    marks := fun q h => by simp [marked_setMark, h]
    marksOnly := fun q h => by
      rw [marked_setMark, Bool.or_eq_true, decide_eq_true_eq] at h
      exact h.elim (fun e => .inr (e ▸ hr)) .inl }

/-! ### The use of entries (R6, R7) -/

theorem useEntry_worked (r : EntryRef) (s : State) : Worked s (useEntry r s).1 := by
  unfold useEntry
  split
  · exact .addFault _ s
  · split
    · exact .refl s
    · rename_i hp
      exact (Worked.setMark s r (by simpa using hp)).trans (.addFault _ _)

/-- A use marks no entry but its own (R6). -/
theorem useEntry_marked (r q : EntryRef) (s : State) (h : q ≠ r) : (useEntry r s).1.marked q = s.marked q := by
  unfold useEntry
  split
  · rfl
  · split
    · rfl
    · exact (marked_setMark s r q).trans (by simp [h])

/-- The fields are handed over exactly where the entry is unmarked and passes, and then nothing changes (R6). -/
theorem useEntry_ok {r : EntryRef} {s : State} (h : (useEntry r s).2 = true) : useEntry r s = (s, true) := by
  unfold useEntry at h ⊢
  split at h
  · simp at h
  · split at h
    · simp_all
    · simp at h

/-- An entry that is not handed over is marked afterwards (R6). -/
theorem useEntry_refused {r : EntryRef} {s : State} (h : (useEntry r s).2 = false) :
    (useEntry r s).1.marked r = true := by
  unfold useEntry at h ⊢
  by_cases hm : s.marked r = true
  · rw [if_pos hm]; exact hm
  · rw [if_neg hm] at h ⊢
    by_cases hp : s.passes r = true
    · rw [if_pos hp] at h; cases h
    · rw [if_neg hp]; exact (marked_setMark s r r).trans (by simp)

theorem zoneDisabledCheck_worked (old z : Nat) (s : State) : Worked s (zoneDisabledCheck old z s) := by
  unfold zoneDisabledCheck
  split
  · exact .addFault _ s
  · split
    · exact .removeFault _ s
    · exact .refl s

theorem zoneMarked_worked (z : Nat) (s : State) : Worked s (zoneMarked z s) :=
  ((Worked.onArbiter s _).trans (.setTrimOf z 0 _)).trans (zoneDisabledCheck_worked _ z _)

theorem touchZone_worked (z : Nat) (s : State) : Worked s (touchZone z s).1 := by
  have h := useEntry_worked (zoneRef z) s
  unfold touchZone
  split
  · rename_i t ht; rw [ht] at h; exact h
  · rename_i t ht; rw [ht] at h
    split
    · exact h
    · exact h.trans (zoneMarked_worked z t)

theorem touchZones_worked (zs : List Nat) (s : State) : Worked s (touchZones zs s).1 := by
  induction zs generalizing s with
  | nil => exact .refl s
  | cons z zs ih => exact (touchZone_worked z s).trans (ih _)

/-- A reading of one of the header's timings (R9). -/
theorem readTiming_worked (f : Header → Nat) (s : State) : Worked s (readTiming f s).1 := by
  have h := useEntry_worked headerRef s
  unfold readTiming
  split <;> (rename_i t ht; rw [ht] at h; exact h)

/-! ### Holder choice and the confirm exchange -/

theorem giveHolder_worked (z : Nat) (h : Holder) (level : Nat) (s : State) : Worked s (giveHolder z h level s) := by
  unfold giveHolder
  split
  · split
    · exact .writeRecord z h s
    · exact .refl s
  · exact ((Worked.onArbiter s _).trans (.writeRecord z h _)).trans (.send _ _)

theorem decideHolder_worked (z : Nat) (s : State) : Worked s (decideHolder z s) := by
  unfold decideHolder
  split
  split
  · split
    · exact ((Worked.onArbiter s _).trans (giveHolder_worked z _ _ _)).trans (.send _ _)
    · exact giveHolder_worked z _ _ s
  · exact giveHolder_worked z _ _ s

theorem chooseHolder_worked (z : Nat) (s : State) : Worked s (chooseHolder z s) := by
  unfold chooseHolder
  split
  · exact (touchZone_worked z s).trans (decideHolder_worked z _)
  · exact decideHolder_worked z s

theorem chooseHolders_worked (zs : List Nat) (s : State) : Worked s (chooseHolders zs s) :=
  .foldl (fun t z => chooseHolder_worked z t) zs s

theorem enterConfirming_worked (k : Nat) (s : State) : Worked s (enterConfirming k s) := by
  unfold enterConfirming
  split
  · exact .refl s
  · have h := readTiming_worked Header.confirmTimeout s
    split
    rename_i t ms ht
    rw [ht] at h
    exact (h.trans (.onArbiter t _)).trans (.queueConfirm _ _)

theorem confirmWinners_worked (ks : List Nat) (s : State) : Worked s (confirmWinners ks s) :=
  .foldl (fun t k => by
    show Worked t (if wouldWin s k then enterConfirming k t else t)
    split
    · exact enterConfirming_worked k t
    · exact .refl t) ks s

theorem wouldWinTest_worked (ks : List Nat) (s : State) : Worked s (wouldWinTest ks s) := by
  have h := touchZones_worked (testReads s ks) s
  unfold wouldWinTest
  split
  · rename_i t ht; rw [ht] at h; exact h.trans (confirmWinners_worked ks t)
  · rename_i t fresh _ ht; rw [ht] at h
    exact (((h.trans (chooseHolders_worked _ _)).trans (confirmWinners_worked _ _)).trans (touchZones_worked _ _)).trans
      ((chooseHolders_worked _ _).trans (confirmWinners_worked _ _))

theorem testPending_worked (s : State) : Worked s (testPending s) := wouldWinTest_worked _ s

theorem choiceEvent_worked (zs : List Nat) (s : State) : Worked s (choiceEvent zs s) := by
  unfold choiceEvent
  split
  · exact .refl s
  · exact (chooseHolders_worked zs s).trans (testPending_worked _)

theorem useZone_worked (z : Nat) (s : State) : Worked s (useZone z s).1 := by
  have h := touchZone_worked z s
  unfold useZone
  split
  · rename_i t ht; rw [ht] at h; exact h
  · rename_i t ht; rw [ht] at h
    split
    · exact h
    · exact h.trans (choiceEvent_worked [z] t)

theorem useAny_worked (r : EntryRef) (s : State) : Worked s (useAny r s).1 := by
  unfold useAny
  split
  · exact useZone_worked _ s
  · exact useEntry_worked r s

/-- A zone's record is handed over only where nothing changes (R6). -/
theorem touchZone_ok {z : Nat} {s : State} (h : (touchZone z s).2 = true) : touchZone z s = (s, true) := by
  unfold touchZone at h ⊢
  split at h
  · rename_i t ht
    rw [← ht, useEntry_ok (by rw [ht])]
  · split at h <;> simp at h

theorem useZone_ok {z : Nat} {s : State} (h : (useZone z s).2 = true) : useZone z s = (s, true) := by
  unfold useZone at h ⊢
  split at h
  · rename_i t ht
    rw [← ht, touchZone_ok (by rw [ht])]
  · split at h <;> simp at h

theorem onAirChoices_worked (sel : Selection) (s : State) : Worked s (onAirChoices sel s) := by
  have h := touchZones_worked (if sel.isGroups then List.range 128 else []) s
  unfold onAirChoices
  split
  rename_i t fresh ht
  rw [ht] at h
  exact h.trans (choiceEvent_worked _ t)

theorem enterOnAir_worked (k : Nat) (s : State) : Worked s (enterOnAir k s) := by
  unfold enterOnAir
  split
  · exact .refl s
  · exact (Worked.onArbiter s _).trans (onAirChoices_worked _ _)

theorem freeSlots_worked (ks : List Nat) (s : State) : Worked s (freeSlots ks s) := by
  have h := (Worked.onArbiter s fun a => { a with claims := ks.foldl (fun c k => c.set k none) a.claims }).trans
    (chooseHolders_worked (indices 128 fun z => ks.any fun k => decide (s.arbiter.holders.get z = .slot k)) _)
  unfold freeSlots
  dsimp only
  split
  · exact h.trans (testPending_worked _)
  · exact h

theorem dropClaims_worked (reason : DropReason) (ks : List Nat) (s : State) : Worked s (dropClaims reason ks s) :=
  (Worked.foldl (fun t k => by
    split
    · exact .notify _ t
    · exact .refl t) ks s).trans (freeSlots_worked ks _)

theorem channelLost_worked (c : Nat) (s : State) : Worked s (channelLost c s) := dropClaims_worked _ _ s

theorem dropAll_worked (reason : DropReason) (s : State) : Worked s (dropAll reason s) := dropClaims_worked _ _ s

theorem takeWait_worked (k : Nat) (c : Claim) (s : State) : Worked s (takeWait k c s) := by
  unfold takeWait
  split
  · exact dropClaims_worked _ _ s
  · have h := readTiming_worked Header.retryInterval s
    split
    rename_i t ms ht
    rw [ht] at h
    exact h.trans (.onArbiter t _)

theorem takeReady_worked (k : Nat) (c : Claim) (s : State) : Worked s (takeReady k c s) := by
  unfold takeReady
  split
  · exact enterOnAir_worked k s
  · exact takeWait_worked k c s

theorem takeDefault_worked (k : Nat) (c : Claim) (s : State) : Worked s (takeDefault k c s) := by
  have h := useEntry_worked (defaultRef (defaultIndex c.level)) s
  unfold takeDefault
  split
  · rename_i t ht; rw [ht] at h; exact h.trans (dropClaims_worked _ _ t)
  · rename_i t ht; rw [ht] at h
    dsimp only
    split
    · exact h.trans (dropClaims_worked _ _ t)
    · exact (h.trans (.onArbiter t _)).trans (enterOnAir_worked k _)

theorem takeWithdraw_worked (k : Nat) (c : Claim) (s : State) : Worked s (takeWithdraw k c s) :=
  dropClaims_worked _ _ s

theorem answer_worked {f : Nat → Claim → State → State} (h : ∀ k c s, Worked s (f k c s)) (station slot number : Nat)
    (s : State) : Worked s (answer f station slot number s) := by
  unfold answer
  split
  · exact h _ _ s
  · exact .refl s

theorem release_worked (station slot : Nat) (s : State) : Worked s (release station slot s) := by
  unfold release
  split
  · split
    · exact freeSlots_worked _ s
    · exact .refl s
  · exact .refl s

theorem claimTimers_worked (s : State) : Worked s (claimTimers s) :=
  ((Worked.onArbiter s _).trans (dropClaims_worked _ _ _)).trans (.foldl (fun t k => enterConfirming_worked k t) _ _)

theorem takePlanClaims_worked (changes : List (Nat × Option PlanKind)) (s : State) :
    Worked s (takePlanClaims changes s) := (Worked.onArbiter s _).trans (choiceEvent_worked _ _)

theorem chooseAndCheck_worked (old : Tab Nat 128) (zs : List Nat) (s : State) : Worked s (chooseAndCheck old zs s) :=
  .foldl (fun t z => (chooseHolder_worked z t).trans (zoneDisabledCheck_worked _ z _)) zs s

theorem setMask_worked (first count value : Nat) (s : State) : Worked s (setMask first count value s).1 := by
  unfold setMask
  split
  · exact .refl s
  · exact ((Worked.onArbiter s _).trans (chooseAndCheck_worked _ _ _)).trans (testPending_worked _)

theorem setBaseValues_worked (s : State) : Worked s (setBaseValues s) := { Worked.refl s with }

theorem takeBaseValues_worked (s : State) : Worked s (takeBaseValues s) :=
  (((touchZones_worked (List.range 128) s).trans (setBaseValues_worked _)).trans (chooseAndCheck_worked _ _ _)).trans
    (testPending_worked _)

theorem releaseReservation_worked (z : Nat) (s : State) : Worked s (releaseReservation z s) := by
  unfold releaseReservation
  split
  · exact (Worked.onArbiter s _).trans (choiceEvent_worked _ _)
  · exact .refl s

theorem endOtherReservation_worked (z : Nat) (s : State) : Worked s (endOtherReservation z s) := by
  unfold endOtherReservation
  split
  · split
    · exact .refl s
    · exact releaseReservation_worked _ s
  · exact .refl s

theorem reserve_worked (z : Nat) (s : State) : Worked s (reserve z s) :=
  (Worked.onArbiter s _).trans (choiceEvent_worked _ _)

theorem requestReservation_worked (z : Nat) (s : State) : Worked s (requestReservation z s).1 := by
  have h := endOtherReservation_worked z s
  unfold requestReservation
  split
  · exact h.trans (reserve_worked z _)
  · exact h

/-! ### The Sequencer -/

theorem scrubLine_worked (k : Nat) (s : State) : Worked s (scrubLine k s) :=
  .foldl (fun t r => useAny_worked r t) _ s

theorem scrubNext_worked (s : State) : Worked s (scrubNext s) :=
  (scrubLine_worked _ s).trans (.onSequencer _ _)

theorem askLineFaults_worked (z : Nat) (r : LastResult) (s : State) : Worked s (askLineFaults z r s) := by
  unfold askLineFaults
  split
  · split
    · exact .addFault _ s
    · exact .refl s
  · split
    · exact ((((Worked.removeFault _ s).trans (.removeFault _ _)).trans (.removeFault _ _)).trans
        (.removeFault _ _)).trans (.removeFault _ _)
    · exact .refl s
  · exact .refl s

theorem recordResult_worked (z : Nat) (report : Option Report) (s : State) : Worked s (recordResult z report s) := by
  have h := useZone_worked z s
  unfold recordResult
  split
  · rename_i t ht; rw [ht] at h; exact h
  · rename_i t ht; rw [ht] at h
    exact (h.trans (.onSequencer t _)).trans (askLineFaults_worked _ _ _)

theorem closeStep_worked (z : Nat) (s : State) : Worked s (closeStep z s) :=
  (((Worked.onSequencer s _).trans (scrubNext_worked _)).trans (.onSequencer _ _)).trans (.onSequencer _ _)

theorem endStep_worked (z : Nat) (report : Option Report) (s : State) : Worked s (endStep z report s) :=
  (recordResult_worked z report s).trans (closeStep_worked z _)

theorem endPilot_worked (z : Nat) (report : Option Report) (s : State) : Worked s (endPilot z report s) :=
  ((recordResult_worked z report s).trans (releaseReservation_worked z _)).trans (closeStep_worked z _)

theorem endBusySkipped_worked (z : Nat) (s : State) : Worked s (endBusySkipped z s) :=
  (Worked.onSequencer s _).trans (closeStep_worked z _)

theorem actOnAnswer_worked (z level : Nat) (s : State) : Worked s (actOnAnswer z level s) := by
  unfold actOnAnswer
  split
  · exact .onSequencer s _
  · split
    · exact endStep_worked z _ s
    · exact .onSequencer s _

theorem openStep_worked (z : Nat) (s : State) : Worked s (openStep z s) := by
  have h := requestReservation_worked z s
  unfold openStep
  split
  · exact endStep_worked z none s
  · split
    rename_i t level ht
    rw [ht] at h
    exact h.trans (actOnAnswer_worked z level t)

theorem search_worked (n z : Nat) (s : State) : Worked s (search n z s).1 := by
  induction n generalizing z s with
  | zero => exact .refl s
  | succ n ih =>
    have h := useZone_worked z s
    unfold search
    split
    rename_i t ok ht
    rw [ht] at h
    split
    · exact h
    · exact h.trans (ih _ t)

theorem startStep_worked (s : State) : Worked s (startStep s) := by
  unfold startStep
  dsimp only
  have h := (Worked.onSequencer s fun q => { q with latch := false }).trans
    (search_worked 128 s.sequencer.pointer _)
  split
  · rename_i u z hu
    have hu' := congrArg Prod.fst hu
    exact (hu' ▸ h).trans ((Worked.onSequencer u _).trans (openStep_worked z _))
  · rename_i u hu
    have hu' := congrArg Prod.fst hu
    exact (hu' ▸ h).trans ((scrubNext_worked u).trans (.onSequencer _ _))

theorem runSteps_worked (n : Nat) (s : State) : Worked s (runSteps n s) := by
  induction n generalizing s with
  | zero => exact .refl s
  | succ n ih =>
    unfold runSteps
    split
    · exact (startStep_worked s).trans (ih _)
    · exact .refl s

theorem startOwed_worked (s : State) : Worked s (startOwed s) := runSteps_worked _ s

theorem checkDeferral_worked (z n : Nat) (s : State) : Worked s (checkDeferral z n s) := by
  have h := readTiming_worked Header.deferralLimit s
  unfold checkDeferral
  split
  rename_i t limit ht
  rw [ht] at h
  split
  · exact h.trans ((endBusySkipped_worked z t).trans (startOwed_worked _))
  · exact h

theorem supervisionTick_worked (s : State) : Worked s (supervisionTick s) := by
  unfold supervisionTick
  split
  · exact (Worked.onSequencer s _).trans (checkDeferral_worked _ _ _)
  · exact (Worked.onSequencer s _).trans (startOwed_worked _)

theorem sweep_worked (count : Nat) (s : State) : Worked s (sweep count s).1 := by
  unfold sweep
  split
  · exact .refl s
  · exact (Worked.onSequencer s _).trans (startOwed_worked _)

theorem abort_worked (z : Nat) (s : State) : Worked s (abort z s) := by
  unfold abort
  split
  · exact ((Worked.onSequencer s _).trans (.onSequencer _ _)).trans (startOwed_worked _)
  · exact .refl s

theorem holderReport_worked (z level : Nat) (s : State) : Worked s (holderReport z level s) := by
  unfold holderReport
  split
  · split
    · split
      · exact (openStep_worked z s).trans (startOwed_worked _)
      · split
        · exact (endStep_worked z _ s).trans (startOwed_worked _)
        · exact .refl s
    · exact .refl s
  · exact .refl s

theorem beginSettle_worked (z : Nat) (s : State) : Worked s (beginSettle z s) := by
  have h := readTiming_worked Header.settleCount s
  unfold beginSettle
  split
  rename_i t count ht
  rw [ht] at h
  exact h.trans (.onSequencer t _)

theorem returnFrameArrival_worked (s : State) : Worked s (returnFrameArrival s) := by
  unfold returnFrameArrival
  split
  · exact beginSettle_worked _ s
  · exact .onSequencer s _
  · split
    · split
      · exact (endPilot_worked _ _ s).trans (startOwed_worked _)
      · split
        · exact (endPilot_worked _ _ s).trans (startOwed_worked _)
        · exact .onSequencer s _
    · split
      · exact (endPilot_worked _ _ s).trans (startOwed_worked _)
      · exact .onSequencer s _
  · exact .refl s

theorem reportsAbsent_worked (s : State) : Worked s (reportsAbsent s) := by
  unfold reportsAbsent
  split
  · exact (Worked.onSequencer s _).trans ((endPilot_worked _ _ _).trans (startOwed_worked _))
  · exact .onSequencer s _

theorem takeMail_worked (m : SequencerMail) (s : State) : Worked s (takeMail m s) := by
  cases m with
  | report z level => exact holderReport_worked z level s
  | abort z => exact abort_worked z s

theorem drain_worked (n : Nat) (s : State) : Worked s (drain n s) := by
  induction n generalizing s with
  | zero => exact .refl s
  | succ n ih =>
    unfold drain
    split
    · exact .refl s
    · rename_i m rest _
      have h : Worked s { s with mail := rest } := { Worked.refl s with }
      exact h.trans ((takeMail_worked m _).trans (ih _))

/-- With nothing sent by the Zone Arbiter, the Sequencer takes nothing. -/
theorem drain_nil (n : Nat) {s : State} (h : s.mail = []) : drain n s = s := by
  cases n with
  | zero => rfl
  | succ n => simp [drain, h]

theorem settled_nil {s : State} (h : s.mail = []) : settled s = .next s := by
  rw [settled, drain_nil _ h]

/-- A settled command answers a next state, from what its own work leaves (log 3). -/
theorem settled_worked (s : State) : ∃ t, settled s = .next t ∧ Worked s t := ⟨_, rfl, drain_worked _ s⟩

end Sys2Proof.Machine
end

