-- ==== Sys2Proof/Laws/Frames.lean ====
section
/-! SUPPORT. Frames and cells that the part makes pass their check, and a wrong check fails it. -/

namespace Sys2Proof.Machine

theorem crc16_lt (l : List Byte) : crc16 l < 65536 := (l.foldl crcByte 0xFFFF#16).isLt

/-- A frame whose two check bytes hold any number: good exactly when that number is the CRC. -/
theorem frameGood_append {n : Nat} {l : List Byte} (h : l.length = n) (c : Nat) :
    frameGood n (l ++ bytes2 c) = decide (crc16 l = c % 65536) := by
  subst h
  have : c / 256 % 256 * 256 + c % 256 = c % 65536 := by omega
  simp [frameGood, bytes2, wordAt, byteAt, byte, List.getD_eq_getElem?_getD, this]

theorem frameGood_withCrc {n : Nat} {l : List Byte} (h : l.length = n) : frameGood n (withCrc l) = true := by
  simp [withCrc, frameGood_append h, Nat.mod_eq_of_lt (crc16_lt l)]

theorem padTo_length (n : Nat) (l : List Byte) : (padTo n l).length = n := by simp [padTo]

theorem cellGood_makeCell (destination source type tag : Nat) (payload : List Byte) :
    cellGood (makeCell destination source type tag payload) = true :=
  frameGood_withCrc (by simp [padTo_length])

end Sys2Proof.Machine
end

