-- ==== Sys2Proof/Laws/Sound.lean ====
section
/-! SUPPORT. What the use of entries does where the entry, or every entry, is sound; that soundness and the header's values stay
beside the work of the arbiter and the sequencer; and steps whose every entry is sound. -/

namespace Sys2Proof.Machine

theorem useEntry_sound {r : EntryRef} {s : State} (h : Sound s r) : useEntry r s = (s, true) := by
  simp [useEntry, h.1, h.2]

theorem useEntry_unsound {r : EntryRef} {s : State} (h : ¬Sound s r) : (useEntry r s).2 = false := by
  unfold useEntry
  split
  · rfl
  · split
    · rename_i hm hp
      exact absurd ⟨by simpa using hm, hp⟩ h
    · rfl

theorem touchZone_sound {z : Nat} {s : State} (h : Sound s (zoneRef z)) : touchZone z s = (s, true) := by
  simp [touchZone, useEntry_sound h]

theorem touchZones_sound {s : State} (h : SoundTables s) (zs : List Nat) : touchZones zs s = (s, []) := by
  induction zs with
  | nil => rfl
  | cons z zs ih => simp [touchZones, touchZone_sound (h _), ih]

theorem useZone_sound {z : Nat} {s : State} (h : Sound s (zoneRef z)) : useZone z s = (s, true) := by
  simp [useZone, touchZone_sound h]

theorem useAny_sound {r : EntryRef} {s : State} (h : Sound s r) : useAny r s = (s, true) := by
  unfold useAny
  split
  · rename_i ht
    apply useZone_sound
    have : zoneRef r.index = r := by cases r; simp_all [zoneRef]
    rwa [this]
  · exact useEntry_sound h

/-- A header timing is the header's value, whatever the header's mark and check (R9). -/
theorem readTiming_value (f : Header → Nat) (s : State) : readTiming f s = (headerUsed s, headerValue f s) := by
  unfold readTiming headerUsed headerValue
  by_cases h : Sound s headerRef
  · simp [useEntry_sound h, h.1, h.2]
  · have h2 := useEntry_unsound h
    unfold Sound at h
    rw [if_neg h]
    split
    · rename_i t ht; rw [ht] at h2; cases h2
    · rename_i t ht; rw [ht]

theorem readTiming_sound (f : Header → Nat) {s : State} (h : Sound s headerRef) :
    readTiming f s = (s, f s.tables.fields.header) := by
  simp [readTiming, useEntry_sound h]

theorem readStoreyCount_sound {s : State} (h : Sound s headerRef) :
    readStoreyCount s = (s, some s.tables.fields.header.storeyCount) := by
  simp [readStoreyCount, useEntry_sound h]

theorem readSpan_sound {k : Nat} {s : State} (h : Sound s (storeyRef k)) :
    readSpan k s = (s, some (s.tables.fields.storeys.get k).zones) := by
  simp [readSpan, useEntry_sound h]

theorem scrubLine_sound {k : Nat} {s : State} (h : ∀ r ∈ scrubEntries k, Sound s r) : scrubLine k s = s := by
  unfold scrubLine
  generalize scrubEntries k = l at h
  induction l with
  | nil => rfl
  | cons r l ih =>
    simp only [List.foldl_cons, useAny_sound (h r (by simp))]
    exact ih fun q hq => h q (by simp [hq])

/-! ### Soundness beside other work -/

theorem Beside.passes {s t : State} (h : Beside s t) (r : EntryRef) : t.passes r = s.passes r := by
  unfold State.passes
  rw [h.fields, h.coded, h.codeFlips]

theorem Beside.sound {s t : State} (h : Beside s t) (r : EntryRef) : Sound t r ↔ Sound s r := by
  constructor
  · intro ht
    refine ⟨?_, by rw [← h.passes]; exact ht.2⟩
    cases hm : s.marked r
    · rfl
    · exact absurd (ht.1.symm.trans (h.marks r hm)) (by simp)
  · intro hs
    refine ⟨?_, by rw [h.passes]; exact hs.2⟩
    cases hm : t.marked r
    · rfl
    · rcases h.marksOnly r hm with h1 | h1
      · rw [hs.1] at h1; cases h1
      · rw [hs.2] at h1; cases h1

theorem Beside.soundTables {s t : State} (h : Beside s t) : SoundTables t ↔ SoundTables s :=
  ⟨fun ht r => (h.sound r).1 (ht r), fun hs r => (h.sound r).2 (hs r)⟩

theorem Beside.headerValue {s t : State} (h : Beside s t) (f : Header → Nat) :
    Machine.headerValue f t = Machine.headerValue f s := by
  have hs := h.sound headerRef
  unfold Machine.headerValue Sound at *
  by_cases hc : s.marked headerRef = false ∧ s.passes headerRef = true
  · rw [if_pos hc, if_pos (hs.2 hc), h.fields]
  · rw [if_neg hc, if_neg fun ht => hc (hs.1 ht)]

/-! ### The arbiter with sound tables -/

/-- With sound tables the arbiter's choices leave the tables, the Fault Unit, the masks, the trims and the plan claims alone. -/
structure Quiet (s t : State) : Prop where
  tables : t.tables = s.tables
  faultUnit : t.faultUnit = s.faultUnit
  masks : t.arbiter.masks = s.arbiter.masks
  planClaims : t.arbiter.planClaims = s.arbiter.planClaims
  trims : t.crosspoint.trims = s.crosspoint.trims
  sequencer : t.sequencer = s.sequencer

namespace Quiet

theorem refl (s : State) : Quiet s s := ⟨rfl, rfl, rfl, rfl, rfl, rfl⟩

theorem trans {s t u : State} (h : Quiet s t) (g : Quiet t u) : Quiet s u :=
  ⟨g.tables.trans h.tables, g.faultUnit.trans h.faultUnit, g.masks.trans h.masks, g.planClaims.trans h.planClaims,
    g.trims.trans h.trims, g.sequencer.trans h.sequencer⟩

theorem sound {s t : State} (h : Quiet s t) (hs : SoundTables s) : SoundTables t := by
  intro r
  have := hs r
  unfold Sound State.marked State.passes at *
  rw [h.tables]
  exact this

theorem foldl {α : Type} {f : State → α → State} (h : ∀ t a, SoundTables t → Quiet t (f t a)) (l : List α) (s : State)
    (hs : SoundTables s) : Quiet s (l.foldl f s) := by
  induction l generalizing s with
  | nil => exact refl s
  | cons a l ih => exact (h s a hs).trans (ih _ ((h s a hs).sound hs))

end Quiet

theorem Arbiter.held_masks (f : Nat → Nat) (h : Holder) (a : Arbiter) :
    (a.held f h).masks = a.masks ∧ (a.held f h).planClaims = a.planClaims := by
  cases h <;> exact ⟨rfl, rfl⟩

theorem giveHolder_quiet (z : Nat) (h : Holder) (level : Nat) (s : State) : Quiet s (giveHolder z h level s) := by
  unfold giveHolder
  split
  · split <;> exact ⟨rfl, rfl, rfl, rfl, rfl, rfl⟩
  · refine ⟨rfl, rfl, ?_, ?_, rfl, rfl⟩
    · show (((s.arbiter.held (· - 1) _).held (· + 1) h)).masks = _
      rw [(Arbiter.held_masks _ _ _).1, (Arbiter.held_masks _ _ _).1]
    · show (((s.arbiter.held (· - 1) _).held (· + 1) h)).planClaims = _
      rw [(Arbiter.held_masks _ _ _).2, (Arbiter.held_masks _ _ _).2]

theorem decideHolder_quiet (z : Nat) (s : State) : Quiet s (decideHolder z s) := by
  unfold decideHolder
  split
  rename_i h l hw
  split
  · split
    · have g := giveHolder_quiet z h l (s.onArbiter fun a => { a with reserved := none })
      exact ⟨g.tables, g.faultUnit, g.masks, g.planClaims, g.trims, g.sequencer⟩
    · exact giveHolder_quiet z .none 0 s
  · exact giveHolder_quiet z h l s

theorem chooseHolder_quiet (z : Nat) {s : State} (hs : SoundTables s) : Quiet s (chooseHolder z s) := by
  unfold chooseHolder
  rw [touchZone_sound (hs _)]
  simp only [ite_self]
  exact decideHolder_quiet z s

theorem chooseHolders_quiet (zs : List Nat) {s : State} (hs : SoundTables s) : Quiet s (chooseHolders zs s) :=
  .foldl (fun _ z ht => chooseHolder_quiet z ht) zs s hs

theorem enterConfirming_quiet (k : Nat) {s : State} (hs : SoundTables s) : Quiet s (enterConfirming k s) := by
  unfold enterConfirming
  split
  · exact .refl s
  · rw [readTiming_sound _ (hs _)]
    exact ⟨rfl, rfl, rfl, rfl, rfl, rfl⟩

theorem confirmWinners_quiet (ks : List Nat) {s : State} (hs : SoundTables s) : Quiet s (confirmWinners ks s) :=
  .foldl (fun t k ht => by
    split
    · exact enterConfirming_quiet k ht
    · exact .refl t) ks s hs

theorem wouldWinTest_sound (ks : List Nat) {s : State} (hs : SoundTables s) : wouldWinTest ks s = confirmWinners ks s := by
  unfold wouldWinTest
  rw [touchZones_sound hs]

theorem testPending_quiet {s : State} (hs : SoundTables s) : Quiet s (testPending s) := by
  unfold testPending
  rw [wouldWinTest_sound _ hs]
  exact confirmWinners_quiet _ hs

theorem choiceEvent_quiet (zs : List Nat) {s : State} (hs : SoundTables s) : Quiet s (choiceEvent zs s) := by
  unfold choiceEvent
  split
  · exact .refl s
  · have h := chooseHolders_quiet zs hs
    exact h.trans (testPending_quiet (h.sound hs))

/-! ### Steps whose every entry is sound (R25) -/

theorem Incident.appliesWhole_sound {s : State} (h : SoundTables s) (k : Nat) (i : Incident) :
    i.appliesWhole s k = true := by
  simp [Incident.appliesWhole, h _]

theorem Incident.storeysRead_sound {s : State} (h : SoundTables s) (k : Nat) (i : Incident) :
    i.storeysRead s k = (i.rangeOf s k).storeys := by
  have hs (r : EntryRef) : Sound s r := h r
  unfold Incident.storeysRead
  rw [if_pos ⟨hs _, hs _⟩]
  induction (i.rangeOf s k).storeys with
  | nil => rfl
  | cons storey rest ih => rw [List.takeWhile_cons, if_pos (decide_eq_true (hs (storeyRef storey))), ih]

theorem Incident.dueSteps_none {s : State} {i : Incident} (h : i.nextStep = none) (n : Nat) :
    Incident.dueSteps s n i = i := by
  cases n <;> simp [Incident.dueSteps, h]

end Sys2Proof.Machine
end

