-- ==== Sys2Proof/Laws/Requests.lean ====
section
/-! SUPPORT. The common handling of requests and claims: a place reserved, the lookup, and the answer put in the place. -/

namespace Sys2Proof.Machine

/-! ### Places and answers -/

/-- An answer goes to the first place reserved for it; places reserved for something else are passed over. -/
theorem fillPlace_append {w : Waiting} {source : Nat} {body : AnswerBody} {l m : List Place}
    (h : ∀ q, Place.reserved w q ∉ l) : fillPlace w source body (l ++ m) = l ++ fillPlace w source body m := by
  induction l with
  | nil => rfl
  | cons p l ih =>
    have hl : ∀ q, Place.reserved w q ∉ l := fun q hq => h q (by simp [hq])
    cases p with
    | filled a => simp [fillPlace, ih hl]
    | reserved v q =>
      have : v ≠ w := fun e => h q (by simp [e])
      simp [fillPlace, this, ih hl]

theorem fillPlace_other {w v : Waiting} (h : v ≠ w) (source : Nat) (body : AnswerBody) (q : Sender) (l : List Place) :
    fillPlace w source body (l ++ [.reserved v q]) = fillPlace w source body l ++ [.reserved v q] := by
  induction l with
  | nil => simp [fillPlace, h]
  | cons p l ih =>
    cases p with
    | filled a => simp [fillPlace, ih]
    | reserved u x =>
      by_cases hu : u = w
      · simp [fillPlace, hu]
      · simp [fillPlace, hu, ih]

theorem fillPlace_length (w : Waiting) (source : Nat) (body : AnswerBody) (l : List Place) :
    (fillPlace w source body l).length = l.length := by
  induction l with
  | nil => rfl
  | cons p l ih =>
    cases p with
    | filled a => simp [fillPlace, ih]
    | reserved v q => unfold fillPlace; split <;> simp [ih]

/-- Between commands the answer to the command in hand goes to the place just reserved (R152). -/
theorem giveAnswer_reserved {q : Sender} {body : AnswerBody} {s : State} (h : HandLaw s.router) :
    giveAnswer .command body (reservePlace q s) = answered q body s := by
  unfold giveAnswer reservePlace answered State.onRouter
  have hf : ∀ x, Place.reserved .command x ∉ s.router.places := fun x hx => h _ hx x rfl
  simp only [fillPlace_append hf, fillPlace, if_true]

/-- The answer to the command in hand, where the router is the one that reserved its place (R152). -/
theorem giveAnswer_of_router {q : Sender} {body : AnswerBody} {r : Router} {s : State} (hl : HandLaw r)
    (h : s.router = { r with places := r.places ++ [.reserved .command q] }) :
    giveAnswer .command body s =
      { s with router := { r with places := r.places ++ [.filled (answerTo q r.address body)] } } := by
  unfold giveAnswer State.onRouter
  have hf : ∀ x, Place.reserved .command x ∉ r.places := fun x hx => hl _ hx x rfl
  rw [h]
  simp only [fillPlace_append hf, fillPlace, if_true]

/-! ### The lookup and the place reserved -/

theorem useEntry_reserved (r : EntryRef) (q : Sender) (s : State) :
    useEntry r (reservePlace q s) = (reservePlace q (useEntry r s).1, (useEntry r s).2) := by
  unfold useEntry
  have hm : (reservePlace q s).marked r = s.marked r := rfl
  have hp : (reservePlace q s).passes r = s.passes r := rfl
  rw [hm, hp]
  split
  · rfl
  · split <;> rfl

theorem searchAuthority_reserved (a : Nat) (q : Sender) (n i : Nat) (s : State) :
    searchAuthority a n i (reservePlace q s) =
      (reservePlace q (searchAuthority a n i s).1, (searchAuthority a n i s).2) := by
  induction n generalizing i s with
  | zero => rfl
  | succ n ih =>
    rcases hu : useEntry (authorityRef i) s with ⟨u, ok⟩
    have hf : (reservePlace q s).tables.fields = s.tables.fields := rfl
    cases ok with
    | false => simp only [searchAuthority, useEntry_reserved, hu, ih]
    | true =>
      simp only [searchAuthority, useEntry_reserved, hu, hf]
      cases s.tables.fields.authorities.get i with
      | none => rfl
      | some e =>
        dsimp only
        split
        · rfl
        · exact ih _ _

/-- The lookup does not see the place reserved. -/
theorem authorityOf_reserved (a : Nat) (q : Sender) (s : State) :
    authorityOf a (reservePlace q s) = (reservePlace q (authorityOf a s).1, (authorityOf a s).2) := by
  unfold authorityOf
  have : (reservePlace q s).noAuthorities = s.noAuthorities := rfl
  rw [this]
  split
  · rfl
  · exact searchAuthority_reserved a q 32 0 s

theorem searchAuthority_worked (a n i : Nat) (s : State) :
    Worked s (searchAuthority a n i s).1 ∧ (searchAuthority a n i s).1.router = s.router ∧
      (searchAuthority a n i s).1.arbiter = s.arbiter ∧ (searchAuthority a n i s).1.crosspoint = s.crosspoint ∧
      (searchAuthority a n i s).1.sequencer = s.sequencer ∧ (searchAuthority a n i s).1.mail = s.mail := by
  induction n generalizing i s with
  | zero => exact ⟨.refl s, rfl, rfl, rfl, rfl, rfl⟩
  | succ n ih =>
    have hw := useEntry_worked (authorityRef i) s
    have hr : ∀ r, (useEntry r s).1.router = s.router ∧ (useEntry r s).1.arbiter = s.arbiter ∧
        (useEntry r s).1.crosspoint = s.crosspoint ∧ (useEntry r s).1.sequencer = s.sequencer ∧
        (useEntry r s).1.mail = s.mail := by
      intro r
      unfold useEntry
      split
      · exact ⟨rfl, rfl, rfl, rfl, rfl⟩
      · split <;> exact ⟨rfl, rfl, rfl, rfl, rfl⟩
    obtain ⟨h1, h2, h3, h4, h5⟩ := hr (authorityRef i)
    have step : ∀ t, (useEntry (authorityRef i) s).1 = t →
        Worked s (searchAuthority a n (i + 1) t).1 ∧ (searchAuthority a n (i + 1) t).1.router = s.router ∧
        (searchAuthority a n (i + 1) t).1.arbiter = s.arbiter ∧
        (searchAuthority a n (i + 1) t).1.crosspoint = s.crosspoint ∧
        (searchAuthority a n (i + 1) t).1.sequencer = s.sequencer ∧
        (searchAuthority a n (i + 1) t).1.mail = s.mail := by
      intro t ht
      subst ht
      obtain ⟨g0, g1, g2, g3, g4, g5⟩ := ih (i + 1) (useEntry (authorityRef i) s).1
      exact ⟨hw.trans g0, g1.trans h1, g2.trans h2, g3.trans h3, g4.trans h4, g5.trans h5⟩
    unfold searchAuthority
    split
    · rename_i t ht; exact step t (by rw [ht])
    · rename_i t ht
      have ht' : (useEntry (authorityRef i) s).1 = t := by rw [ht]
      split
      · subst ht'; exact ⟨hw, h1, h2, h3, h4, h5⟩
      · split
        · subst ht'; exact ⟨hw, h1, h2, h3, h4, h5⟩
        · exact step t ht'

/-- The lookup uses entries of the authority table and does nothing else (R16). -/
theorem lookedUp_worked (q : Sender) (s : State) : Worked s (lookedUp q s) := by
  unfold lookedUp authorityOf
  split
  · exact .refl s
  · exact (searchAuthority_worked q.station 32 0 s).1

theorem lookedUp_beside (q : Sender) (s : State) :
    (lookedUp q s).router = s.router ∧ (lookedUp q s).arbiter = s.arbiter ∧
      (lookedUp q s).crosspoint = s.crosspoint ∧ (lookedUp q s).sequencer = s.sequencer ∧
      (lookedUp q s).mail = s.mail := by
  unfold lookedUp authorityOf
  split
  · exact ⟨rfl, rfl, rfl, rfl, rfl⟩
  · exact (searchAuthority_worked q.station 32 0 s).2

/-- With sound tables the lookup changes nothing. -/
theorem lookedUp_sound {q : Sender} {s : State} (h : SoundTables s) : lookedUp q s = s := by
  unfold lookedUp authorityOf
  split
  · rfl
  · have : ∀ n i, (searchAuthority q.station n i s).1 = s := by
      intro n
      induction n with
      | zero => intro i; rfl
      | succ n ih =>
        intro i
        unfold searchAuthority
        rw [useEntry_sound (h _)]
        dsimp only
        split
        · rfl
        · split
          · rfl
          · exact ih _
    exact this 32 0

/-! ### Requests -/

/-- A request with no place free has no effect (R152). -/
theorem request_noPlace {q : Sender} {type : Nat} {need : Authority} {data : List Byte}
    {owner : State → State × Reply} {s : State} (h : 8 ≤ s.router.places.length) :
    request q type need data owner s = s := by
  have : s.hasPlace = false := by simp [State.hasPlace]; omega
  simp [request, this]

/-- A request below its requirement is answered DENIED (R155). -/
theorem request_denied {q : Sender} {type : Nat} {need : Authority} {data : List Byte}
    {owner : State → State × Reply} {s : State} (hp : s.router.places.length < 8) (hl : HandLaw s.router)
    (ha : need.meets (authorityOf q.station s).2 = false) :
    request q type need data owner s = answered q (.response type .denied data) (lookedUp q s) := by
  have hp' : s.hasPlace = true := by simp [State.hasPlace, hp]
  have hr : HandLaw (lookedUp q s).router := by rw [(lookedUp_beside q s).1]; exact hl
  unfold request
  rw [authorityOf_reserved]
  simp only [hp', ha, if_true, Bool.true_eq_false, if_false]
  exact giveAnswer_reserved hr

/-- A request to an unbound part that only a bound one takes is answered NOT_BOUND (R155). -/
theorem request_notBound {q : Sender} {type : Nat} {need : Authority} {data : List Byte}
    {owner : State → State × Reply} {s : State} (h : Entitled q need s) (hb : s.router.address = 0)
    (ht : takenUnbound type = false) :
    request q type need data owner s = answered q (.response type .notBound data) (lookedUp q s) := by
  have hp' : s.hasPlace = true := by simp [State.hasPlace, h.place]
  have hr : HandLaw (lookedUp q s).router := by rw [(lookedUp_beside q s).1]; exact h.hand
  have hb' : (reservePlace q (authorityOf q.station s).1).router.address = 0 := by
    show (lookedUp q s).router.address = 0
    rw [(lookedUp_beside q s).1]; exact hb
  unfold request
  rw [authorityOf_reserved]
  simp only [hp', h.authority, hb', ht, if_true, Bool.true_eq_false, if_false, and_self]
  exact giveAnswer_reserved hr

/-- A request that passes the common checks is given to its owner, with the place reserved and the lookup made (R155). -/
theorem request_heard {q : Sender} {type : Nat} {need : Authority} {data : List Byte}
    {owner : State → State × Reply} {s : State} (h : Entitled q need s)
    (hb : s.router.address ≠ 0 ∨ takenUnbound type = true) :
    request q type need data owner s =
      match owner (reservePlace q (lookedUp q s)) with
      | (u, some (st, answer)) => giveAnswer .command (.response type st answer) u
      | (u, none) => u := by
  have hp' : s.hasPlace = true := by simp [State.hasPlace, h.place]
  have hb' : ¬((reservePlace q (authorityOf q.station s).1).router.address = 0 ∧ takenUnbound type = false) := by
    intro hc
    have h1 : (lookedUp q s).router.address = 0 := hc.1
    rw [(lookedUp_beside q s).1] at h1
    rcases hb with hb | hb
    · exact hb h1
    · rw [hb] at hc; cases hc.2
  unfold request
  rw [authorityOf_reserved]
  simp only [hp', h.authority, Bool.true_eq_false, if_false, if_neg hb']
  rfl

/-- A request whose owner only reads is answered and changes nothing else. -/
theorem request_reading {q : Sender} {type : Nat} {need : Authority} {data : List Byte}
    {f : State → Status × List Byte} {s : State} (h : Entitled q need s)
    (hb : s.router.address ≠ 0 ∨ takenUnbound type = true) :
    request q type need data (fun t => (t, some (f t))) s =
      answered q (.response type (f (reservePlace q (lookedUp q s))).1 (f (reservePlace q (lookedUp q s))).2)
        (lookedUp q s) := by
  have hr : HandLaw (lookedUp q s).router := by rw [(lookedUp_beside q s).1]; exact h.hand
  rw [request_heard h hb]
  exact giveAnswer_reserved hr

end Sys2Proof.Machine
end

