-- ==== Sys2Proof/Laws/Tab.lean ====
section
/-! SUPPORT. Reading a fixed-length table after it has been changed. -/

namespace Sys2Proof.Tab

variable {α β : Type} [Inhabited α] [Inhabited β] {n : Nat}

theorem get_set_self (t : Tab α n) (a : α) {i : Nat} (h : i < n) : (t.set i a).get i = a := by
  simp [get, set, List.getD_eq_getElem?_getD, t.size, h]

theorem get_set_ne (t : Tab α n) (a : α) {i j : Nat} (h : i ≠ j) : (t.set i a).get j = t.get j := by
  simp [get, set, List.getD_eq_getElem?_getD, List.getElem?_set_ne h]

omit [Inhabited α] in
theorem set_beyond (t : Tab α n) (a : α) {i : Nat} (h : n ≤ i) : t.set i a = t := by
  cases t with
  | mk l hl =>
    have : l.set i a = l := List.set_eq_of_length_le (by omega)
    simp [set, this]

theorem get_beyond (t : Tab α n) {i : Nat} (h : n ≤ i) : t.get i = default := by
  simp [get, List.getD_eq_getElem?_getD, List.getElem?_eq_none (by simpa [t.size] using h : t.items.length ≤ i)]

theorem get_set (t : Tab α n) (a : α) (i j : Nat) :
    (t.set i a).get j = if i = j ∧ j < n then a else t.get j := by
  by_cases h : i = j
  · subst h
    by_cases hi : i < n
    · simp [get_set_self, hi]
    · simp [set_beyond t a (Nat.not_lt.mp hi), hi]
  · simp [h, get_set_ne t a h]

theorem get_const (a : α) {i : Nat} (h : i < n) : (const a : Tab α n).get i = a := by
  simp [get, const, List.getD_eq_getElem?_getD, h]

omit [Inhabited α] [Inhabited β] in
theorem getElem?_mapFrom (f : Nat → α → β) (l : List α) (k i : Nat) :
    (mapFrom f k l)[i]? = (l[i]?).map (f (k + i)) := by
  induction l generalizing k i with
  | nil => simp [mapFrom]
  | cons a l ih =>
    cases i with
    | zero => simp [mapFrom]
    | succ i => simp only [mapFrom, List.getElem?_cons_succ, ih, Nat.add_assoc, Nat.add_comm 1 i]

theorem get_mapIdx (t : Tab α n) (f : Nat → α → β) {i : Nat} (h : i < n) : (t.mapIdx f).get i = f i (t.get i) := by
  have hi : i < t.items.length := by simpa [t.size] using h
  simp [get, mapIdx, List.getD_eq_getElem?_getD, getElem?_mapFrom, List.getElem?_eq_getElem hi]

/-- Two tables that read alike at every place are equal. -/
theorem ext_get {t u : Tab α n} (h : ∀ i < n, t.get i = u.get i) : t = u := by
  cases t with
  | mk l hl => cases u with
    | mk m hm =>
      have : l = m := by
        apply List.ext_getElem (by omega)
        intro i hi hj
        simpa [get, List.getD_eq_getElem?_getD, List.getElem?_eq_getElem hi, List.getElem?_eq_getElem hj] using
          h i (by omega)
      subst this; rfl

end Sys2Proof.Tab
end

