-- ==== Sys2Proof/WellFormed.lean ====
section
/-! DEFINITION. Well-formed commands: operands within the ranges that their cells, frames and hand-overs can carry. -/

namespace Sys2Proof

/-- Within a byte. -/
def isByte (n : Nat) : Bool := decide (n ≤ 255)

/-- Within two bytes. -/
def isWord (n : Nat) : Bool := decide (n ≤ 65535)

def isZone (z : Nat) : Bool := decide (z ≤ 127)

/-- A request or claim is taken from a station 1 to 254 (R149); its tag is a byte. -/
def Sender.wf (q : Sender) : Bool := decide (1 ≤ q.station) && decide (q.station ≤ 254) && isByte q.tag

/-- A selection as a CLAIM cell can carry it (file 10, section 10.2). -/
def SelectionField.wf : SelectionField → Bool
  | .span first count => isByte first && isByte count
  | .groups _ => true
  | .unknown form => decide (2 ≤ form) && isByte form

/-- An entry of one of the nine tables (file 01, section 1.1). -/
def EntryRef.wf (r : EntryRef) : Bool := decide (r.index < Machine.tableEntries r.table)

/-- A fault with an object of its kind (file 09, section 9.2). -/
def FaultId.wf : FaultId → Bool
  | .lineOpen z | .lineShort z | .earth z | .ampFail z | .noReport z | .zoneDisabled z => isZone z
  | .sourceLost c => decide (c ≤ 31)
  | .detectorFault d => decide (d ≤ 511)
  | .sLink | .zLink => true
  | .tableCorrupt r => r.wf

/-- A notification whose fields are in range (R174). -/
def Notice.wf : Notice → Bool
  | .incident id _ => decide (1 ≤ id) && isByte id
  | .incidentOverflow dz => decide (dz ≤ 511)
  | .claimDropped slot station _ => decide (slot ≤ 15) && decide (1 ≤ station) && decide (station ≤ 254)
  | .faultAdded f stamp | .faultRemoved f stamp => f.wf && decide (stamp ≤ 4294967295)
  | .snapshot faults incidents _ => decide (faults ≤ 64) && decide (incidents ≤ 8)
  | _ => true

/-- A cell with a good CRC (R111, R180). -/
def isCell (c : List Byte) : Bool := Machine.cellGood c

/-- A frame's bytes after its start word, or none (R179). -/
def isReceived (n : Nat) : Option (List Byte) → Bool
  | some l => decide (l.length = n)
  | none => true

/-- A DETECT cell that is discarded: a detection zone above 511 or an unknown event (R35). -/
def isDiscarded (dz event : Nat) : Bool := decide (511 < dz) || decide (event = 0) || decide (4 < event)

/-- The three fields of SET MASK and SET TRIM as bytes. -/
def isSpanValue (first count value : Nat) : Bool := isByte first && isByte count && isByte value

/-- The named table, index and image of a read as their bytes carry them. -/
def isNamed (table index : Nat) : Bool := isByte table && isWord index

/-- The changed zones of one hand-over, each once (R73). -/
def isHandover (changes : List (Nat × Option PlanKind)) : Bool :=
  changes.all (fun c => isZone c.1) && decide (changes.map Prod.fst).Nodup

/-- A well-formed command. -/
def Instr.wf : Instr → Bool
  | .sPeriodSettle received => isReceived 88 received
  | .zPeriodSettle received => isReceived 276 received
  | .returnCellForward cell | .cellForwardSToZ cell => isCell cell
  | .fire dz | .restore dz | .dfault dz | .dfaultClear dz => decide (dz ≤ 511)
  | .detectDiscard dz event => isWord dz && isByte event && isDiscarded dz event
  | .confirmDeadlineExpiry id => decide (1 ≤ id) && isByte id
  | .allClearEnd zone => isZone zone
  | .planClaimHandover changes => isHandover changes
  | .claim sender level channel selection => sender.wf && isByte level && isByte channel && selection.wf
  | .release station slot => decide (1 ≤ station) && decide (station ≤ 254) && isByte slot
  | .answerReady station slot number | .answerDefault station slot number | .answerWithdraw station slot number
  | .answerWait station slot number =>
    decide (1 ≤ station) && decide (station ≤ 254) && isByte slot && isByte number
  | .confirmTimeout slot | .retryIntervalEnd slot => decide (slot ≤ 15)
  | .channelPresenceChange channel => decide (channel ≤ 31)
  | .bind sender address destination => sender.wf && isByte address && isByte destination
  | .status sender | .editBegin sender | .editCommit sender | .editCancel sender | .evacuateAll sender
  | .resetAll sender | .enableNotices sender | .disableNotices sender | .restart sender => sender.wf
  | .readEntry sender table index image | .readLine sender table index image =>
    sender.wf && isNamed table index && isByte image
  | .readState sender kind form number => sender.wf && isByte kind && isByte form && isWord number
  | .find sender first count sense _ => sender.wf && isSpanValue first count sense
  | .writeEntry sender table index contents =>
    sender.wf && isNamed table index && decide (contents.length = 12)
  | .writeLine sender table index contents =>
    sender.wf && isNamed table index && decide (contents.length = 48)
  | .setMask sender first count value | .setTrim sender first count value =>
    sender.wf && isSpanValue first count value
  | .hold sender id | .resume sender id | .advance sender id | .resetIncident sender id => sender.wf && isByte id
  | .sweep sender count => sender.wf && isByte count
  | .unknownRequest sender requestType =>
    sender.wf && isByte requestType && (decide (requestType = 0) || decide (23 < requestType))
  | .addFault fault | .removeFault fault => fault.wf
  | .queueNotification notice => notice.wf
  | .scrubLine line => decide (line ≤ 127)
  | .reservationRequest zone | .reservationRelease zone | .abort zone => isZone zone
  | .reservationAnswer zone level | .holderReport zone level => isZone zone && decide (level ≤ 7)
  | .powerOnReset | .frameEvent | .incidentTick | .supervisionTick | .frameStart _ | .sLinkUp | .huntFailed
  | .sLinkIsland | .sOutboundFrame | .zFrameBuild | .zLinkUp | .zLinkDown | .transmitterChoice | .validationEnd
  | .install | .leaseExpiry | .breakNotice | .returnFrameArrival | .settleEnd | .sampleWindowEnd | .deferralLimit
  | .reportsAbsent | .reportsAvailable => true

end Sys2Proof
end

