-- ==== Sys2Proof/Tests/Slice0.lean ====
section
/-! SUPPORT. Tests: ill-formed commands refused, examples of the manual, and for each statement a state and operands
that meet its hypotheses, clause by clause. -/

namespace Sys2Proof.Tests

open Sys2Proof.Machine

-- One test at a time: many kernel evaluations at once take many threads.
set_option Elab.async false

/-! ### Well-formed commands -/

def sender : Sender := { station := 5, tag := 7 }

/-- A sender that is no station, and one whose tag is no byte. -/
def badSenders : List Sender := [{ station := 0, tag := 7 }, { station := 255, tag := 7 }, { station := 5, tag := 256 }]

theorem test_wf_refuses_frames_and_cells :
    [Instr.sPeriodSettle (some []), .sPeriodSettle (some (List.replicate 89 0)), .zPeriodSettle (some []),
      .zPeriodSettle (some (List.replicate 277 0)), .returnCellForward [], .cellForwardSToZ (List.replicate 63 0)].all
      (fun c => !c.wf) = true := by
  decide +kernel

/-- A cell with a wrong CRC. -/
def brokenCell : List Byte := List.replicate 62 0 ++ bytes2 (crc16 (List.replicate 62 0) + 1)

theorem brokenCell_bad : cellGood brokenCell = false := by
  have h := crc16_lt (List.replicate 62 0)
  rw [cellGood, brokenCell, frameGood_append (by simp), decide_eq_false_iff_not]
  omega

theorem test_wf_refuses_a_wrong_crc :
    (Instr.returnCellForward brokenCell).wf = false ∧ (Instr.cellForwardSToZ brokenCell).wf = false := by
  simp only [Instr.wf, isCell, brokenCell_bad, and_self]

theorem test_wf_refuses_detection_and_plan :
    [Instr.fire 512, .restore 512, .dfault 512, .dfaultClear 512, .detectDiscard 65536 1, .detectDiscard 600 256,
      .detectDiscard 3 1, .detectDiscard 511 4, .confirmDeadlineExpiry 0, .confirmDeadlineExpiry 256, .allClearEnd 128,
      .planClaimHandover [(128, none)], .planClaimHandover [(1, none), (1, some .alert)]].all (fun c => !c.wf) = true := by
  decide

theorem test_wf_refuses_claims :
    [Instr.claim sender 256 0 (.span 0 1), .claim sender 1 256 (.span 0 1), .claim sender 1 0 (.span 256 1),
      .claim sender 1 0 (.span 0 256), .claim sender 1 0 (.unknown 1), .claim sender 1 0 (.unknown 256), .release 0 1,
      .release 255 1, .release 5 256, .answerReady 0 1 1, .answerReady 255 1 1, .answerReady 5 256 1,
      .answerReady 5 1 256, .answerDefault 0 1 1, .answerWithdraw 5 256 1, .answerWait 5 1 256, .confirmTimeout 16,
      .retryIntervalEnd 16, .channelPresenceChange 32].all (fun c => !c.wf) = true := by
  decide

theorem test_wf_refuses_senders :
    badSenders.all (fun q =>
      [Instr.claim q 1 0 (.span 0 1), .bind q 1 1, .status q, .readEntry q 0 0 0, .readLine q 0 0 0, .readState q 1 0 1,
        .find q 0 1 0 1, .editBegin q, .writeEntry q 0 0 (List.replicate 12 0), .writeLine q 0 0 (List.replicate 48 0),
        .editCommit q, .editCancel q, .setMask q 0 1 1, .setTrim q 0 1 1, .hold q 1, .resume q 1, .advance q 1,
        .resetIncident q 1, .evacuateAll q, .resetAll q, .sweep q 1, .enableNotices q, .disableNotices q, .restart q,
        .unknownRequest q 24].all (fun c => !c.wf)) = true := by
  decide

theorem test_wf_refuses_requests :
    [Instr.bind sender 256 1, .bind sender 1 256, .readEntry sender 256 0 0, .readEntry sender 0 65536 0,
      .readEntry sender 0 0 256, .readLine sender 256 0 0, .readState sender 256 0 0, .readState sender 1 256 0,
      .readState sender 1 0 65536, .find sender 256 0 0 0, .find sender 0 256 0 0, .find sender 0 0 256 0,
      .writeEntry sender 0 0 [], .writeEntry sender 256 0 (List.replicate 12 0), .writeLine sender 0 0 [],
      .writeLine sender 0 65536 (List.replicate 48 0), .setMask sender 256 1 1, .setTrim sender 0 256 1,
      .setTrim sender 0 1 256, .hold sender 256, .resume sender 256, .advance sender 256, .resetIncident sender 256,
      .sweep sender 256, .unknownRequest sender 256, .unknownRequest sender 1, .unknownRequest sender 23].all
      (fun c => !c.wf) = true := by
  decide

theorem test_wf_refuses_hand_overs :
    [Instr.addFault (.lineOpen 128), .addFault (.sourceLost 32), .addFault (.detectorFault 512),
      .removeFault (.tableCorrupt { table := .header, index := 1 }), .queueNotification (.incident 0 .held),
      .queueNotification (.incident 256 .held), .queueNotification (.incidentOverflow 512),
      .queueNotification (.claimDropped 16 5 .link), .queueNotification (.claimDropped 1 255 .link),
      .queueNotification (.faultAdded (.earth 128) 0), .queueNotification (.faultRemoved .sLink 4294967296),
      .queueNotification (.snapshot 65 0 none), .queueNotification (.snapshot 0 9 none), .scrubLine 128,
      .reservationRequest 128, .reservationRelease 128, .abort 128, .reservationAnswer 128 0, .reservationAnswer 0 8,
      .holderReport 128 0, .holderReport 0 8].all (fun c => !c.wf) = true := by
  decide

theorem test_wf_takes :
    [Instr.fire 511, .detectDiscard 512 1, .detectDiscard 0 5, .claim sender 7 31 (.groups 1), .release 254 15,
      .planClaimHandover [(127, none), (0, some .alert)], .unknownRequest sender 24, .readEntry sender 8 31 1,
      .queueNotification (.snapshot 64 8 (some .officer)), .holderReport 127 7, .sPeriodSettle none].all
      Instr.wf = true := by
  decide

theorem test_wf_takes_a_cell : (Instr.returnCellForward (makeCell 255 5 1 0 [])).wf = true := by
  simp only [Instr.wf, isCell, cellGood_makeCell]

/-! ### Examples of the manual -/

def step (offset : Int) (length : Nat) (carry : Bool) : StepRecord :=
  { StepRecord.powerOn with offset, length, carry }

/-- The table of R30, and the building of 10 storeys below it. -/
theorem test_range_examples :
    stepRange 96 40 (step (-1) 3 false) = { range := some (39, 41), clipped := 0, unplaced := 0 } ∧
    stepRange 96 95 (step (-1) 3 false) = { range := some (94, 95), clipped := 1, unplaced := 1 } ∧
    stepRange 96 95 (step (-1) 3 true) = { range := some (93, 95), clipped := 1, unplaced := 0 } ∧
    stepRange 96 0 (step (-1) 3 true) = { range := some (0, 2), clipped := 1, unplaced := 0 } ∧
    stepRange 96 95 (step 0 96 true) = { range := some (0, 95), clipped := 95, unplaced := 0 } ∧
    stepRange 96 95 (step 1 3 true) = { range := none, clipped := 3, unplaced := 3 } ∧
    stepRange 96 2 (step (-10) 20 false) = { range := some (0, 11), clipped := 8, unplaced := 8 } ∧
    stepRange 10 5 (step (-10) 30 true) = { range := some (0, 9), clipped := 20, unplaced := 20 } := by
  decide

/-- The results of R139, in its order. -/
theorem test_classification_order :
    classify 10 20 (some { valid := false, load := 15, earth := false, ampFailed := true }) = .failed .noReport ∧
    classify 10 20 (some { valid := true, load := 15, earth := true, ampFailed := true }) = .failed .ampFail ∧
    classify 10 20 (some { valid := true, load := 21, earth := true, ampFailed := false }) = .failed .earth ∧
    classify 10 20 (some { valid := true, load := 21, earth := false, ampFailed := false }) = .failed .lineOpen ∧
    classify 10 20 (some { valid := true, load := 9, earth := false, ampFailed := false }) = .failed .lineShort ∧
    classify 10 20 (some { valid := true, load := 20, earth := false, ampFailed := false }) = .normal := by
  decide

/-- A trim of 0 passes every sample, and silence stays silence (R121). -/
theorem test_trim_ends :
    attenuate 0 0x8000#16 = 0x8000#16 ∧ attenuate 0 0x7FFF#16 = 0x7FFF#16 ∧ attenuate 31 0 = 0 ∧
    (attenuate 6 (BitVec.ofInt 16 (-10000))).toInt = -5011 := by
  decide +kernel

/-- The CRC over the nine digits as bytes, the usual check of this polynomial and start value (R179). -/
theorem test_crc_check_value : crc16 [0x31, 0x32, 0x33, 0x34, 0x35, 0x36, 0x37, 0x38, 0x39] = 0x29B1 := by
  decide +kernel

/-- The last scrub lines that carry storeys and small entries (R143). -/
theorem test_scrub_lines_end :
    scrubEntries 99 =
      [zoneRef 99, detectionRef 396, detectionRef 397, detectionRef 398, detectionRef 399, stepRef 198, stepRef 199,
        authorityRef 31] ∧
    scrubEntries 67 =
      [zoneRef 67, storeyRef 67, detectionRef 268, detectionRef 269, detectionRef 270, detectionRef 271, stepRef 134,
        stepRef 135, headerRef] ∧
    (scrubEntries 127).length = 7 := by
  decide

/-- A chain that returns to a step of its own fails CHAIN_LOOP, a 33rd step CHAIN_LENGTH (R22). -/
theorem test_chain_checks :
    walkChain ((Tab.const .powerOn).set 3 { StepRecord.powerOn with next := some 3 }) 32 [] 0 3 =
      some { entry := stepRef 3, reason := .chainLoop } ∧
    walkChain ((Tab.const StepRecord.powerOn).mapIdx fun k e => { e with next := some (k + 1) }) 32 [] 0 0 =
      some { entry := stepRef 31, reason := .chainLength } := by
  decide +kernel

/-- Each check of a commit that fails, in the order of R18, with its entry and its reason. -/
theorem test_validation_failures :
    (let im := Image.powerOn
     let storey (k first count : Nat) (i : Image) : Image := { i with storeys := i.storeys.set k ⟨first, count⟩ }
     let twenty : Image := { im with header := { Header.powerOn with storeyCount := 20 } }
     storeyFailure (storey 20 0 1 twenty) 20 = some ⟨storeyRef 20, .range⟩ ∧
     storeyFailure (storey 19 127 2 twenty) 19 = some ⟨storeyRef 19, .range⟩ ∧
     storeyFailure (storey 19 4 1 (storey 3 5 2 twenty)) 19 = some ⟨storeyRef 19, .order⟩ ∧
     storeyFailure (storey 19 6 1 (storey 3 5 2 twenty)) 19 = some ⟨storeyRef 19, .overlap⟩ ∧
     storeyFailure (storey 19 7 1 (storey 3 5 2 twenty)) 19 = none ∧
     zoneFailure { im with zones := im.zones.set 127 { ZoneRecord.powerOn with low := 9, high := 8 } } 127 =
       some ⟨zoneRef 127, .order⟩ ∧
     detectionFailure { twenty with detections := im.detections.set 511 ⟨true, 20, 0, false, false⟩ } 511 =
       some ⟨detectionRef 511, .range⟩ ∧
     planFailure { im with
       plans := im.plans.set 15 (some 0)
       steps := (im.steps.set 0 { StepRecord.powerOn with delay := 5, next := some 1 }).set 1
         { StepRecord.powerOn with delay := 4, next := none } } 15 = some ⟨stepRef 1, .delayOrder⟩ ∧
     authorityFailure { im with authorities := (im.authorities.set 0 (some ⟨9, .monitor⟩)).set 1 (some ⟨9, .operate⟩) } 1 =
       some ⟨authorityRef 1, .duplicate⟩ ∧
     authorityFailure { im with authorities := (im.authorities.set 0 (some ⟨9, .monitor⟩)).set 1 (some ⟨8, .operate⟩) } 1 =
       some ⟨authorityRef 1, .order⟩) := by
  decide +kernel

/-! ### What the witnesses are built from -/

/-- The part bound at address 10, nothing else having happened. -/
def base : State := State.reset.onRouter fun r => { r with address := 10, destination := some 20 }

def withImage (im : Image) (s : State) : State := { s with tables := .fresh im }

def withClaim (k : Nat) (c : Claim) (s : State) : State :=
  s.onArbiter fun a => { a with claims := a.claims.set k (some c) }

def withHolder (z : Nat) (h : Holder) (s : State) : State :=
  s.onArbiter fun a => { a with holders := a.holders.set z h }

def withIncidents (l : List Incident) (s : State) : State := s.onEngine fun e => { e with incidents := l }

def withStep (p : StepState) (s : State) : State := s.onSequencer fun q => { q with step := p }

def withEdit (phase : EditPhase) (lease : Nat) (s : State) : State :=
  s.setEdit (some { owner := 5, lease := lease, staging := .powerOn, phase := phase })

/-- A claim of station 5 on channel 3 over zone 0. -/
def claimAt (level : Nat) (state : ClaimState) : Claim :=
  { station := 5, channel := 3, level := level, selection := .span 0 1, state := state, arrival := 1, waitCount := 0,
    zonesHeld := 0 }

/-- An incident with id 1 and origin storey 0 that raises no zone. -/
def incidentAt (state : IncidentState) (next : Option Nat) : Incident :=
  { id := 1, state := state, origin := 0, plan := 0, dzList := [(0, .inAlarm)], further := 0, elapsed := 0,
    nextStep := next, lastStep := none, planFault := false, demand := .const .none }

/-- A building of two storeys of one zone each, detection zones 0 and 511 mapped to storey 0. -/
def building : Image :=
  { Image.powerOn with
    header := { Header.powerOn with storeyCount := 2 }
    storeys := ((Tab.const Storey.powerOn).set 0 { first := 0, count := 1 }).set 1 { first := 1, count := 1 }
    detections :=
      ((Tab.const DetectionEntry.powerOn).set 0 { DetectionEntry.powerOn with mapped := true }).set 511
        { DetectionEntry.powerOn with mapped := true, confirmRequired := true, preAlert := true } }

/-- The header's stored code altered (R5). -/
def damaged : State := base.onTables fun t => { t with codeFlips := [(headerRef, 1)] }

theorem sound_of {s : State} (hf : s.tables.fields = s.tables.coded) (hc : s.tables.codeFlips = [])
    (hm : s.tables.marks = []) : SoundTables s := fun r =>
  ⟨by simp [State.marked, hm], by simp [State.passes, hf, hc, flipOf]⟩

/-- Everything is sound beside the one entry whose stored code is altered. -/
theorem sound_beside {s : State} {r : EntryRef} (hf : s.tables.fields = s.tables.coded) (hc : s.tables.codeFlips = [(r, 1)])
    (hm : s.tables.marks = []) : ∀ x, x ≠ r → Sound s x := fun x hx =>
  ⟨by simp [State.marked, hm], by simp [State.passes, hf, hc, flipOf, Ne.symm hx]⟩

theorem found_of {s : State} (hf : s.tables.fields = s.tables.coded) (hc : s.tables.codeFlips = []) : DamageFound s :=
  fun r _ => by simp [State.passes, hf, hc, flipOf]

theorem hand_of {s : State} (h : s.router.places = []) : HandLaw s.router := by simp [HandLaw, h]

theorem heard_of {s : State} (q : Sender) (need : Authority) (hp : s.router.places = []) (hb : s.router.address ≠ 0)
    (ha : s.noAuthorities = true) : Heard q need s where
  place := by simp [hp]
  hand := hand_of hp
  authority := by cases need <;> simp [authorityOf, ha, Authority.meets, authorityCode]
  bound := hb

theorem claims_all {s : State} {p : Claim → Bool} (h : s.arbiter.claims.items.all (fun c => c.all p) = true)
    {k : Nat} {c : Claim} (hc : s.arbiter.claims.get k = some c) : p c = true := by
  have hk : k < 16 := by
    by_cases hk : k < 16
    · exact hk
    · rw [Tab.get_beyond _ (Nat.le_of_not_lt hk)] at hc; simp at hc
  have hl : k < s.arbiter.claims.items.length := by simpa [s.arbiter.claims.size] using hk
  have := List.all_eq_true.mp h _ (List.getElem_mem hl)
  rw [Tab.get, List.getD_eq_getElem?_getD, List.getElem?_eq_getElem hl] at hc
  simp only [Option.getD_some] at hc
  simpa [hc] using this

/-- `HolderLaw` of every zone, as a test. -/
def holdersAgree (s : State) : Bool :=
  (List.range 128).all fun z =>
    if s.arbiter.reserved = some z then decide (s.arbiter.holders.get z = .none) && decide ((winner s z).2 < 3)
    else decide (s.arbiter.holders.get z = (winner s z).1)

theorem holders_of {s : State} (h : holdersAgree s = true) : ∀ z < 128, HolderLaw s z := by
  intro z hz
  have := List.all_eq_true.mp h z (List.mem_range.mpr hz)
  constructor
  · intro hr; simpa [hr] using this
  · intro hr; simpa [hr] using this

/-- `RecordLaw` of every zone, as a test. -/
def recordsAgree (s : State) : Bool :=
  (List.range 128).all fun z =>
    match s.arbiter.holders.get z with
    | .none => decide (s.crosspoint.records.get z = .none)
    | .plan => (s.arbiter.planClaims.get z).any fun kind => decide (s.crosspoint.records.get z = .plan kind)
    | .slot k => (s.arbiter.claims.get k).any fun c => decide (s.crosspoint.records.get z = .slot k c.channel)

theorem records_of {s : State} (h : recordsAgree s = true) : ∀ z < 128, RecordLaw s z := by
  intro z hz
  have hr := List.all_eq_true.mp h z (List.mem_range.mpr hz)
  constructor
  · intro hh; simpa [hh] using hr
  · intro hh; simpa [hh, Option.any_eq_true] using hr
  · intro k hh; simpa [hh, Option.any_eq_true] using hr

/-- `StampLaw`, as a test. -/
def stampsAgree (a : Arbiter) : Bool :=
  decide (a.arrivalCounter ≤ 65535) && decide (a.onAirCounter ≤ 65535) &&
    (List.range 16).all fun k => (a.claims.get k).all fun c =>
      decide (1 ≤ c.arrival ∧ c.arrival ≤ a.arrivalCounter) &&
        c.onAirStamp.all (fun n => decide (1 ≤ n ∧ n ≤ a.onAirCounter)) &&
        (List.range 16).all fun j => decide (j = k) || (a.claims.get j).all fun d =>
          decide (d.arrival ≠ c.arrival) && d.onAirStamp.all fun n => decide (c.onAirStamp ≠ some n)

theorem all_iff {α : Type} (o : Option α) (p : α → Bool) : o.all p = true ↔ ∀ x, o = some x → p x = true := by
  cases o <;> simp

theorem stamps_of {a : Arbiter} (h : stampsAgree a = true) : StampLaw a := by
  simp only [stampsAgree, Bool.and_eq_true, Bool.or_eq_true, decide_eq_true_eq, List.all_eq_true, List.mem_range,
    all_iff] at h
  obtain ⟨⟨h1, h2⟩, h3⟩ := h
  refine ⟨h1, h2, fun k hk c hc => (h3 k hk c hc).1.1, fun k hk n hn => ?_, fun j hj k hk hjk c d hc hd => ?_,
    fun j hj k hk hjk n hn hm => ?_⟩
  · obtain ⟨c, hc, hn⟩ := Option.bind_eq_some_iff.mp hn
    exact (h3 k hk c hc).1.2 n hn
  · exact (((h3 k hk d hd).2 j hj).resolve_left hjk c hc).1
  · obtain ⟨c, hc, hn⟩ := Option.bind_eq_some_iff.mp hn
    obtain ⟨d, hd, hm⟩ := Option.bind_eq_some_iff.mp hm
    exact (((h3 k hk d hd).2 j hj).resolve_left hjk c hc).2 n hn hm

/-- `DemandLaw`, as a test. -/
def demandAgrees (e : Engine) : Bool :=
  (List.range 128).all fun z =>
    decide (e.demand.get z = e.formed z) && (decide (e.allClear.get z = 0) || decide (e.demand.get z = .none))

theorem demand_of {e : Engine} (h : demandAgrees e = true) : DemandLaw e := by
  constructor <;> intro z hz <;> have := List.all_eq_true.mp h z (List.mem_range.mpr hz) <;>
    simp only [Bool.and_eq_true, Bool.or_eq_true, decide_eq_true_eq] at this
  · exact this.1
  · intro hn; exact this.2.resolve_left hn

theorem base_sound : SoundTables base := sound_of rfl rfl rfl

theorem base_heard (need : Authority) : Heard sender need base := heard_of _ _ rfl (by decide) (by decide +kernel)

/-- What differs from `base` in neither its requests nor its tables' contents and marks hears every request. -/
theorem heard_like (s : State) (need : Authority) (hr : s.router = base.router)
    (hf : s.tables.fields = base.tables.fields) (hm : s.tables.marks = base.tables.marks) : Heard sender need s :=
  heard_of _ _ (by rw [hr]; rfl) (by rw [hr]; decide)
    (by rw [State.noAuthorities, hf, hm]; exact (show base.noAuthorities = true by decide +kernel))

/-! ### Each statement's hypotheses met -/

theorem test_meets_StepTakesTheFrontCommand : base.pending = [] := rfl

/-- The laws that the kept laws assume hold together, and a step answers a next state there. -/
theorem test_meets_laws_kept :
    FaultUnitLaw base.faultUnit ∧ DemandLaw base.engine ∧ EditLaw base ∧ ChannelLaw base.arbiter ∧
    (∀ z < 128, HolderLaw base z) ∧ CountLaw base.arbiter ∧ ZoneLaw base ∧ RouterLaw base.router ∧
    HandLaw base.router ∧ OwedLaw base.sequencer ∧ IncidentLaw base.engine ∧ PlanClaimLaw base ∧
    (∀ z < 128, RecordLaw base z) ∧ StampLaw base.arbiter ∧
    ∃ t, Sys2Proof.Machine.step { base with pending := [.frameEvent] } = .next t := by
  have free : ∀ k, base.arbiter.claims.get k = none := fun k => by
    by_cases hk : k < 16
    · exact Tab.get_const _ hk
    · exact Tab.get_beyond _ (Nat.le_of_not_lt hk)
  refine ⟨⟨by decide, by decide, by decide, by decide, by decide, by decide⟩, demand_of (by decide +kernel), ?_, ?_,
    holders_of (by decide +kernel), ?_, ⟨by decide, by decide, by decide, ?_⟩,
    ⟨by decide, by decide, by decide, by decide, by decide, by decide, by decide, by decide⟩, hand_of rfl, ?_,
    ⟨by decide, by decide, by decide, by decide, by decide, by decide⟩, ?_, records_of (by decide +kernel),
    stamps_of (by decide +kernel), ⟨_, rfl⟩⟩
  · intro h; exact absurd h (by decide)
  · intro j _ k _ _ c d hc; simp [free] at hc
  · intro k _ c hc; simp [free] at hc
  · intro z h; cases h
  · intro _; decide
  · intro z hz; revert z; decide +kernel

theorem test_meets_PlanClaimsFollowDemand : ∃ t, exec (.allClearEnd 0) base = .next t := ⟨_, rfl⟩

theorem test_meets_SequencerTakesItsMail :
    Leaves (.scrubLine 128) base base ∧ base.mail = [] ∧ (base.send (.abort 3)).mail = .abort 3 :: [] := ⟨rfl, rfl, rfl⟩

theorem test_meets_UseOfAnEntry :
    (base.setMark headerRef).marked headerRef = true ∧
    (base.marked headerRef = false ∧ base.passes headerRef = true) ∧
    (damaged.marked headerRef = false ∧ damaged.passes headerRef = false) := by
  decide +kernel

/-- Entries of each table at the ends of their ranges are held by their images. -/
theorem test_meets_EncodingsAgree :
    readEntry .header (entryImage (.header ⟨96, 600, 0, 255, 8, 16, 1000, 100⟩)) =
      some (.header ⟨96, 600, 0, 255, 8, 16, 1000, 100⟩) ∧
    readEntry .storey [127, 8] = some (.storey ⟨127, 8⟩) ∧
    readEntry .zoneRecord [15, 31, 6, 1, 255, 0] = some (.zoneRecord ⟨15, 31, 6, true, 255, 0⟩) ∧
    readEntry .detection [0, 95, 15, 1, 1] = some (.detection ⟨false, 95, 15, true, true⟩) ∧
    readEntry .plan [255, 255] = some (.plan none) ∧ readEntry .plan [0, 255] = some (.plan (some 255)) ∧
    readEntry .step [1, 14, 16, 161, 96, 1, 1, 0, 0] = some (.step ⟨.all, 3600, -95, 96, .evacuate, true, some 0⟩) ∧
    readEntry .translation [255] = some (.translation none) ∧
    readEntry .defaultChannel [31] = some (.defaultChannel 31) ∧
    readEntry .authority [1, 254, 3] = some (.authority (some ⟨254, .configure⟩)) := by
  decide

def sLinkAt (link : SLink) (good failed : Nat) : State :=
  base.onSPort fun p => { p with link := link, goodRun := good, failedRun := failed }

def timerAt (frame divider : Nat) (lock : TimerLock) (s : State) : State :=
  s.onTimer fun f => { f with frameCount := frame, divider := divider, lock := lock }

/-- A frame event with a claim's timer just above its end; and a frame start in each state of the link and the timer. -/
theorem test_meets_FrameEventsAndStarts :
    (let s := timerAt 15998 2 .free (withClaim 15 (claimAt 2 (.confirming 9 2)) base)
     s.timer.frameCount < 15999 ∧ 2 ≤ s.timer.divider ∧ (∀ e n, s.tables.edit = some e → e.phase ≠ .validating n) ∧
     ∀ k < 16, ∀ c, s.arbiter.claims.get k = some c →
       (∀ number timer, c.state = .confirming number timer → 2 ≤ timer) ∧ ∀ timer, c.state = .waiting timer → 2 ≤ timer) ∧
    (sLinkAt .down 0 0).sPort.link = .down ∧ (sLinkAt .island 0 0).sPort.link = .island ∧
    (sLinkAt .hunt 0 0).sPort.link = .hunt ∧
    (∀ lock, (timerAt 0 1 lock (sLinkAt .up 0 0)).sPort.link = .up ∧
      (timerAt 0 1 lock (sLinkAt .up 0 0)).timer.lock = lock) := by
  refine ⟨⟨by decide, by decide, (fun _ _ h => nomatch h), ?_⟩, rfl, rfl, rfl, fun _ => ⟨rfl, rfl⟩⟩
  intro k _ c hc
  have h : c.state = .confirming 9 2 := of_decide_eq_true (claims_all (p := fun c => decide (c.state = .confirming 9 2))
    (by decide) hc)
  constructor
  · intro number timer h2; rw [h] at h2; cases h2; decide
  · intro timer h2; rw [h] at h2; cases h2

/-- `TimerRuns`, as a test. -/
def timerRuns (s : State) (k : Nat) : Bool :=
  (s.arbiter.claims.get k).all fun c => match c.state with
    | .confirming _ 0 => false
    | .waiting 0 => false
    | _ => true

theorem runs_of {s : State} {k : Nat} (h : timerRuns s k = true) : TimerRuns s k := by
  intro c hc
  rw [timerRuns, hc, Option.all_some] at h
  constructor
  · rintro number he; simp [he] at h
  · rintro he; simp [he] at h

theorem all_run_of {s : State} (h : (List.range 16).all (timerRuns s) = true) : ∀ k < 16, TimerRuns s k :=
  fun k hk => runs_of (List.all_eq_true.mp h k (List.mem_range.mpr hk))

/-- A frame event with the incident tick due, one with the supervision tick due, and a validation with two frames and
with one left, every claim's timer running. -/
theorem test_meets_FrameEventsAndStarts_ticks :
    (let s := timerAt 15999 2 .free (withClaim 15 (claimAt 2 (.confirming 9 2)) base)
     (∀ k < 16, TimerRuns (frameCounted s) k) ∧ (∀ e n, s.tables.edit = some e → e.phase ≠ .validating n) ∧
     15999 ≤ s.timer.frameCount ∧ 2 ≤ s.timer.divider) ∧
    (let s := timerAt 15998 1 .free base
     (∀ k < 16, TimerRuns (frameCounted s) k) ∧ s.timer.frameCount < 15999 ∧ s.timer.divider ≤ 1 ∧ s.mail = []) ∧
    ∀ n, (let s := withEdit (.validating n) 30 base
      (∀ k < 16, TimerRuns (frameCounted s) k) ∧
      s.tables.edit = some { owner := 5, lease := 30, staging := .powerOn, phase := .validating n } ∧
      s.timer.frameCount < 15999 ∧ 2 ≤ s.timer.divider) :=
  ⟨⟨all_run_of (by decide), (fun _ _ h => nomatch h), by decide, by decide⟩,
    ⟨all_run_of (by decide), by decide, by decide, rfl⟩,
    fun _ => ⟨all_run_of (show (List.range 16).all (timerRuns (frameCounted base)) = true by decide), rfl,
      show base.timer.frameCount < 15999 by decide, show 2 ≤ base.timer.divider by decide⟩⟩

/-- A claim in CONFIRMING and one in WAITING whose timers run out at the frame event, no other claim's doing so. -/
theorem test_meets_FrameEventsAndStarts_timers :
    ((frameCounted (withClaim 15 (claimAt 2 (.confirming 9 1)) base)).arbiter.claims.get 15 =
        some (claimAt 2 (.confirming 9 0)) ∧
      ∀ j < 16, j ≠ 15 → TimerRuns (frameCounted (withClaim 15 (claimAt 2 (.confirming 9 1)) base)) j) ∧
    (frameCounted (withClaim 15 (claimAt 2 (.waiting 1)) base)).arbiter.claims.get 15 = some (claimAt 2 (.waiting 0)) ∧
    ∀ j < 16, j ≠ 15 → TimerRuns (frameCounted (withClaim 15 (claimAt 2 (.waiting 1)) base)) j := by
  refine ⟨⟨by decide, ?_⟩, by decide, ?_⟩ <;> intro j hj hn <;> refine runs_of ?_ <;> revert j <;> decide

/-- A good and a bad S-frame, and a good return frame. -/
def goodSFrame : List Byte := withCrc (List.replicate 86 0)

def goodZFrame : List Byte := withCrc (List.replicate 274 0)

theorem goodSFrame_good : sFrameGood goodSFrame = true := by
  rw [sFrameGood, goodSFrame, frameGood_withCrc List.length_replicate]

theorem goodZFrame_good : frameGood 274 goodZFrame = true := by
  rw [goodZFrame, frameGood_withCrc List.length_replicate]

theorem badFrame_bad : sFrameGood [] = false ∧ frameGood 274 [] = false := by decide

theorem test_meets_SPeriodsSettleOutsideUp :
    (sFrameGood goodSFrame = true ∧ sFrameGood [] = false) ∧
    ((sLinkAt .down 0 0).sPort.link = .down ∧ (sLinkAt .island 0 0).sPort.link = .island) ∧
    ((sLinkAt .hunt 14 0).sPort.link = .hunt ∧ (sLinkAt .hunt 14 0).sPort.goodRun < 15) ∧
    (sLinkAt .hunt 15 0).sPort.goodRun = 15 ∧ (sLinkAt .hunt 0 2).sPort.failedRun < 3 ∧
    (sLinkAt .hunt 0 3).sPort.failedRun = 3 ∧ (∃ t, exec .sLinkUp (sLinkAt .hunt 16 0) = .next t) ∧
    (∃ t, exec .huntFailed (sLinkAt .hunt 0 4) = .next t) :=
  ⟨⟨goodSFrame_good, badFrame_bad.1⟩, ⟨rfl, rfl⟩, by decide, rfl, by decide, rfl, ⟨_, rfl⟩, ⟨_, rfl⟩⟩

def someCell (destination : Nat) : List Byte := makeCell destination 5 1 0 []

def channelAt (p : Presence) (run : Nat) (s : State) : State :=
  s.onCrosspoint fun x => { x with presence := x.presence.set 31 p, runs := x.runs.set 31 run }

theorem someCell_length (d : Nat) : (someCell d).length = 64 := by simp [someCell, makeCell, withCrc, padTo, bytes2]

theorem brokenCell_length : brokenCell.length = 64 := by simp [brokenCell, bytes2]

/-- The segment that ends a frame of zeros, its marker clear. -/
theorem segmentAt_end (n : Nat) {tail : List Byte} (h : tail.length = 16) :
    segmentAt (withCrc (List.replicate (n + 1) 0 ++ tail)) n = ⟨false, tail⟩ := by
  have hd : (List.replicate (n + 1) (0 : Byte) ++ tail ++ bytes2 (crc16 (List.replicate (n + 1) 0 ++ tail))).drop (n + 1) =
      tail ++ bytes2 (crc16 (List.replicate (n + 1) 0 ++ tail)) := by
    rw [List.append_assoc, List.drop_left' List.length_replicate]
  rw [segmentAt, withCrc, hd, List.take_left' h]
  simp [byteAt, List.getD_eq_getElem?_getD, List.getElem?_append]

/-- The last segment of a cell completes it. -/
theorem rebuild_completes {c : List Byte} (h : c.length = 64) :
    rebuild ⟨false, c.drop 48⟩ (c.take 48) = ([], some c) := by
  have hn : c.take 48 ≠ [] := fun h0 => by have := congrArg List.length h0; simp [h] at this
  simp [rebuild, hn, h]

/-- A frame of either presence bit with channel 31 as it was, turning, and at the end of its run. -/
theorem test_meets_SPeriodsSettleInUp :
    ((sLinkAt .up 0 2).sPort.link = .up ∧ sFrameGood goodSFrame = true ∧ sFrameGood [] = false ∧
      (sLinkAt .up 0 2).sPort.failedRun < 3 ∧ 3 ≤ (sLinkAt .up 0 3).sPort.failedRun) ∧
    (∀ b, sFrameGood (withCrc (List.replicate 86 b)) = true) ∧
    (bitAt goodSFrame 65 31 = false ∧ bitAt (withCrc (List.replicate 86 255)) 65 31 = true) ∧
    (∀ p ∈ [Presence.absent, .lost, .present], (channelAt p 63 (sLinkAt .up 0 0)).crosspoint.presence.get 31 = p ∧
      64 ≤ (channelAt p 63 (sLinkAt .up 0 0)).crosspoint.runs.get 31 + 1 ∧
      ¬64 ≤ (channelAt p 62 (sLinkAt .up 0 0)).crosspoint.runs.get 31 + 1) ∧
    (SoundTables (channelAt .present 63 (sLinkAt .up 0 0)) ∧
      FaultUnitLaw (channelAt .present 63 (sLinkAt .up 0 0)).faultUnit) ∧
    ∀ c < 32, ¬64 ≤ (sLinkAt .up 0 0).crosspoint.runs.get c + 1 := by
  refine ⟨⟨rfl, goodSFrame_good, badFrame_bad.1, by decide, by decide⟩, fun b => ?_, by decide +kernel, by decide,
    ⟨sound_of rfl rfl rfl, by decide, by decide, by decide, by decide, by decide, by decide⟩, by decide⟩
  rw [sFrameGood, frameGood_withCrc List.length_replicate]

/-- The last segment of a cell, good or bad, completes it, a first segment begins one, and a segment with no cell begun is
lost. -/
theorem test_meets_SPeriodsSettleInUp_cells :
    (rebuild ⟨false, []⟩ [] = ([], none) ∧ ∀ bytes, rebuild ⟨true, bytes⟩ [] = (bytes, none)) ∧
    (cellGood (someCell 3) = true ∧ cellGood brokenCell = false) ∧
    ∀ c ∈ [someCell 3, brokenCell],
      rebuild (segmentAt (withCrc (List.replicate 70 0 ++ c.drop 48)) 69) (c.take 48) = ([], some c) := by
  refine ⟨⟨rfl, fun _ => rfl⟩, ⟨cellGood_makeCell .., brokenCell_bad⟩, fun c hc => ?_⟩
  have h : c.length = 64 := by
    simp only [List.mem_cons, List.not_mem_nil, or_false] at hc
    rcases hc with rfl | rfl
    · exact someCell_length 3
    · exact brokenCell_length
  rw [segmentAt_end 69 (by simp [h]), rebuild_completes h]

/-- A cell of each kind of R149: for another part, for this one and for everyone, taken and not. -/
theorem test_meets_SPeriodsSettleInUp_delivery :
    (byteAt (someCell 3) 0 = 3 ∧ base.router.address = 10 ∧ base.mail = []) ∧
    (byteAt (someCell 10) 0 = 10 ∧ byteAt (someCell 10) 2 = 1 ∧
      readCell (someCell 10) = some (.detectDiscard 0 0)) ∧
    (readCell (makeCell 10 254 5 7 [2]) = some (.status { station := 254, tag := 7 }) ∧
      byteAt (makeCell 10 254 5 7 [2]) 1 = 254) ∧
    (readCell (makeCell 10 5 6 7 []) = none ∧ byteAt (makeCell 10 0 5 7 [2]) 1 = 0) ∧
    (byteAt (makeCell 255 1 5 7 [1]) 0 = 255 ∧
      readCell (makeCell 255 1 5 7 [1, 9, 9]) = some (.bind { station := 1, tag := 7 } 9 9)) ∧
    (byteAt (makeCell 255 1 3 7 []) 2 = 3 ∧ byteAt (makeCell 255 1 5 7 [3]) 4 = 3) := by
  decide +kernel

/-- An exit from UP with a channel already LOST; and the run one below its end, and another state. -/
theorem test_meets_SLinkIslandHandsOver :
    (let s := (sLinkAt .up 0 4).onCrosspoint fun x => { x with presence := x.presence.set 31 .lost }
     s.sPort.link = .up ∧ 4 ≤ s.sPort.failedRun ∧ (∀ z < 128, HolderLaw s z) ∧ SoundTables s ∧
     FaultUnitLaw s.faultUnit ∧ s.crosspoint.presence.get 31 = .lost) ∧
    (sLinkAt .up 0 3).sPort.failedRun < 4 ∧ (sLinkAt .hunt 0 4).sPort.link ≠ .up := by
  refine ⟨⟨rfl, by decide, holders_of (by decide +kernel), sound_of rfl rfl rfl, ?_, by decide⟩, by decide, by decide⟩
  exact ⟨by decide, by decide, by decide, by decide, by decide, by decide⟩

def zQueue (n : Nat) (s : State) : State := s.onRouter fun r => { r with zToS := List.replicate n (someCell 3) }

def sQueue (n : Nat) (s : State) : State := s.onRouter fun r => { r with sToZ := List.replicate n (someCell 3) }

theorem test_meets_CellLanes :
    (∀ d, cellGood (someCell d) = true) ∧
    ((zQueue 7 (sLinkAt .up 0 0)).sPort.link = .up ∧ (zQueue 7 (sLinkAt .up 0 0)).router.zToS.length < 8) ∧
    (base.sPort.link ≠ .up ∧ 8 ≤ (zQueue 8 base).router.zToS.length) ∧
    ((sQueue 7 base).router.sToZ.length < 8 ∧ 8 ≤ (sQueue 8 base).router.sToZ.length) ∧
    base.router.address = 10 := by
  refine ⟨fun d => cellGood_makeCell .., ⟨rfl, ?_⟩, ⟨by decide, ?_⟩, ⟨?_, ?_⟩, rfl⟩ <;>
    simp [zQueue, sQueue, State.onRouter]

/-- The three states of the cell lane, a holder record of each kind, and a plan slot whose Zone Record or translation
entry is marked. -/
theorem test_meets_ZFrameSlots :
    SoundTables base ∧ DamageFound base ∧
    (∀ r, DamageFound (base.setMark r) ∧ (base.setMark r).marked r = true) ∧
    (∀ e, base.tables.edit = some e → e.phase ≠ .passed) ∧ RouterLaw base.router ∧
    (base.router.zSending = [] ∧ base.router.sToZ = []) ∧
    (RouterLaw (sQueue 1 base).router ∧ (sQueue 1 base).router.zSending = [] ∧
      (sQueue 1 base).router.sToZ = someCell 3 :: []) ∧
    (RouterLaw (base.onRouter fun r => { r with zSending := [idleSegment] }).router) ∧
    (let x := (((base.crosspoint.records.set 0 (.slot 15 31)).set 127 (.plan .evacuate)))
     x.get 0 = .slot 15 31 ∧ x.get 127 = .plan .evacuate ∧ x.get 1 = .none) := by
  have cell : (someCell 3).length = 64 := someCell_length 3
  refine ⟨base_sound, found_of rfl rfl, fun r => ⟨found_of rfl rfl, ?_⟩, (fun _ h => nomatch h),
    ⟨by decide, by decide, by decide, by decide, by decide, by decide, by decide, by decide⟩, ⟨rfl, rfl⟩,
    ⟨⟨?_, ?_, ?_, ?_, ?_, ?_, ?_, ?_⟩, rfl, rfl⟩,
    ⟨by decide, by decide, by decide, by decide, by decide, by decide, by decide, by decide⟩, by decide⟩ <;>
    simp [sQueue, base, State.onRouter, State.reset, cell, marked_setMark]

def zLinkAt (link : ZLink) (good failed : Nat) : State :=
  base.onZPort fun p => { p with link := link, goodRun := good, failedRun := failed }

theorem test_meets_ZPeriodsSettle :
    (frameGood 274 goodZFrame = true ∧ frameGood 274 [] = false) ∧
    ((zLinkAt .down 14 0).zPort.link = .down ∧ (zLinkAt .down 14 0).zPort.goodRun < 15) ∧
    15 ≤ (zLinkAt .down 15 0).zPort.goodRun ∧ (∃ t, exec .zLinkUp (zLinkAt .down 16 0) = .next t) ∧
    16 ≤ (zLinkAt .down 16 0).zPort.goodRun ∧
    ((zLinkAt .up 0 2).zPort.link = .up ∧ (zLinkAt .up 0 2).zPort.failedRun < 3) ∧
    3 ≤ (zLinkAt .up 0 3).zPort.failedRun ∧ 4 ≤ (zLinkAt .up 0 4).zPort.failedRun ∧
    (zLinkAt .up 0 4).sequencer.step.pilotZone = none ∧
    (withStep (.pilot 127) (zLinkAt .up 0 4)).sequencer.step.pilotZone = some 127 :=
  ⟨⟨goodZFrame_good, badFrame_bad.2⟩, by decide, by decide, ⟨_, rfl⟩, by decide, by decide, by decide, by decide, rfl, rfl⟩

/-- A return frame that completes a good cell, and one that completes a bad one; and the states of the return queue. -/
theorem test_meets_ZPeriodsSettle_cells :
    (∀ tail : List Byte, tail.length = 16 → frameGood 274 (withCrc (List.replicate 258 0 ++ tail)) = true) ∧
    (cellGood (someCell 3) = true ∧ cellGood brokenCell = false) ∧
    (∀ c ∈ [someCell 3, brokenCell],
      rebuild (segmentAt (withCrc (List.replicate 258 0 ++ c.drop 48)) 257) (c.take 48) = ([], some c)) ∧
    (zQueue 7 (sLinkAt .up 0 0)).router.zToS.length < 8 ∧ ¬(zQueue 8 (sLinkAt .up 0 0)).router.zToS.length < 8 := by
  refine ⟨fun tail h => frameGood_withCrc (by simp only [List.length_append, List.length_replicate, h]),
    ⟨cellGood_makeCell .., brokenCell_bad⟩, fun c hc => ?_, ?_, ?_⟩
  · have h : c.length = 64 := by
      simp only [List.mem_cons, List.not_mem_nil, or_false] at hc
      rcases hc with rfl | rfl
      · exact someCell_length 3
      · exact brokenCell_length
    rw [segmentAt_end 257 (by simp [h]), rebuild_completes h]
  all_goals simp [zQueue, State.onRouter]

def up : State := sLinkAt .up 0 0

def answerOf : Answer := answerTo sender 10 (.response 2 .ok [])

/-- A source of each kind, with what stands before it passed over. -/
theorem test_meets_TransmitterChoosesInOrder :
    base.sPort.link ≠ .up ∧ (up.onRouter fun r => { r with sSending := [idleSegment] }).router.sSending ≠ [] ∧
    (let s := (withClaim 0 (claimAt 2 (.confirming 9 1)) up).onRouter fun r =>
        { r with confirms := [⟨5, 1, 2, 3, 9⟩] ++ [⟨5, 0, 2, 3, 9⟩] }
     s.sPort.link = .up ∧ s.router.sSending = [] ∧ confirmCurrent s ⟨5, 1, 2, 3, 9⟩ = false ∧
     confirmCurrent s ⟨5, 0, 2, 3, 9⟩ = true) ∧
    (up.router.sSending = [] ∧ ∀ d ∈ up.router.confirms, confirmCurrent up d = false) ∧
    (up.onRouter fun r => { r with places := [.filled answerOf] }).router.places = .filled answerOf :: [] ∧
    (∀ a rest, (up.onRouter fun r => { r with places := [.reserved .commit sender, .filled answerOf] }).router.places ≠
      .filled a :: rest) ∧
    (zQueue 1 up).router.zToS = someCell 3 :: [] ∧ (up.router.zToS = [] ∧ up.faultUnit.queue = []) ∧
    (up.onFaultUnit fun u => { u with queue := [⟨1, .overrun⟩], overrun := true }).faultUnit.queue =
      ⟨1, .overrun⟩ :: [] := by
  refine ⟨by decide, by decide, by decide, ⟨rfl, by decide⟩, rfl, ?_, rfl, ⟨rfl, rfl⟩, rfl⟩
  intro a rest h; cases h

/-- The authority table with station 9 a MONITOR at position 0 and the rest VACANT. -/
def monitors : Image :=
  { Image.powerOn with authorities := (Tab.const none).set 0 (some { station := 9, authority := .monitor }) }

/-- The authority table full, with the stations 1 to 32. -/
def allAuthorities : Image :=
  { Image.powerOn with
    authorities := (Tab.const (n := 32) ()).mapIdx fun i _ => some { station := i + 1, authority := .monitor } }

/-- No position of a full table matches station 254. -/
theorem test_meets_RequestsRefusedInOrder_full :
    SoundTables (withImage allAuthorities base) ∧
    ∀ i < 32, ∃ e, (withImage allAuthorities base).tables.fields.authorities.get i = some e ∧ e.station ≠ 254 := by
  refine ⟨sound_of rfl rfl rfl, fun i hi => ⟨{ station := i + 1, authority := .monitor }, ?_, ?_⟩⟩
  · revert i; decide
  · simp only [ne_eq]; omega

def full : State := base.onRouter fun r => { r with places := List.replicate 8 (.filled answerOf) }

theorem test_meets_RequestsRefusedInOrder :
    (requestOf (.sweep sender 1) = some (sender, 20, .operate, []) ∧ 8 ≤ full.router.places.length) ∧
    ((withImage monitors base).router.places.length < 8 ∧ HandLaw (withImage monitors base).router ∧
      Authority.operate.meets (authorityOf 9 (withImage monitors base)).2 = false ∧
      Authority.monitor.meets (authorityOf 5 (withImage monitors base)).2 = false) ∧
    (Entitled sender .operate State.reset ∧ State.reset.router.address = 0) ∧
    (base.tables.marks.all (fun r => decide (r.table ≠ .authority)) = true ∧
      base.tables.fields.authorities = .const none) ∧
    (SoundTables (withImage monitors base) ∧
      (withImage monitors base).tables.fields.authorities.get 0 = some { station := 9, authority := .monitor } ∧
      (withImage monitors base).tables.fields.authorities.get 1 = none ∧ 9 ≠ sender.station) ∧
    ∃ s : State, ∀ i < 32, s.marked (authorityRef i) = true := by
  refine ⟨⟨rfl, by decide⟩, ⟨by decide, hand_of rfl, by decide +kernel, by decide +kernel⟩, ⟨⟨by decide, hand_of rfl, ?_⟩,
    rfl⟩, ⟨by decide, rfl⟩, ⟨sound_of rfl rfl rfl, by decide, by decide, by decide⟩,
    base.onTables (fun t => { t with marks := (List.range 32).map authorityRef }), by decide +kernel⟩
  decide +kernel

theorem test_meets_BindingAndNotices :
    (Entitled sender .configure base ∧ base.router.address ≠ 0) ∧
    (Entitled sender .configure State.reset ∧ State.reset.router.address = 0) ∧ Heard sender .operate base :=
  ⟨⟨(base_heard .configure).toEntitled, by decide⟩, ⟨⟨by decide, hand_of rfl, by decide +kernel⟩, rfl⟩, base_heard _⟩

/-- The ends of the tables and of the kinds' numbers, in effect and staging; an incident by id and by place; a claim in
each state. -/
theorem test_meets_ReadsAnswerTheState :
    (Entitled sender .monitor base ∧ base.router.address ≠ 0 ∧ base.tables.edit = none ∧
      base.arbiter.claims.get 15 = none) ∧
    (tableOfNumber 8 = some .authority ∧ 31 < tableEntries .authority ∧ tableEntries .authority ≤ 32 ∧
      tableOfNumber 9 = none) ∧
    (∀ phase, Entitled sender .monitor (withEdit phase 1 base) ∧
      (withEdit phase 1 base).tables.edit = some ⟨5, 1, .powerOn, phase⟩) ∧
    (∀ state next, (let s := withIncidents [incidentAt state next] base
      Entitled sender .monitor s ∧ s.incident 0 = some (incidentAt state next) ∧ (incidentAt state next).id = 1 ∧
      s.engine.incidents.length ≤ 1 ∧ ∀ i ∈ s.engine.incidents, i.id ≠ 255)) ∧
    ∀ state, Entitled sender .monitor (withClaim 15 (claimAt 2 state) base) ∧
      (withClaim 15 (claimAt 2 state) base).arbiter.claims.get 15 = some (claimAt 2 state) := by
  refine ⟨⟨(base_heard _).toEntitled, by decide, rfl, by decide⟩, by decide,
    fun phase => ⟨(heard_like (withEdit phase 1 base) _ rfl rfl rfl).toEntitled, rfl⟩,
    fun state next => ⟨(heard_like (withIncidents [incidentAt state next] base) _ rfl rfl rfl).toEntitled, rfl, rfl,
      Nat.le_refl 1, ?_⟩,
    fun state => ⟨(heard_like (withClaim 15 (claimAt 2 state) base) _ rfl rfl rfl).toEntitled,
      Tab.get_set_self _ _ (by decide)⟩⟩
  intro i hi
  simp only [withIncidents, State.onEngine, List.mem_singleton] at hi
  simp [hi, incidentAt]

/-- The refused station; and the hits: NOT_TESTED has the place 7 of the result set. -/
theorem test_meets_FindAnswersTheSpan :
    ((withImage monitors base).router.places.length < 8 ∧ HandLaw (withImage monitors base).router ∧
      Authority.monitor.meets (authorityOf 5 (withImage monitors base)).2 = false) ∧
    Heard sender .monitor base ∧
    ((0x80#8).getLsbD (resultCode (base.sequencer.zones.get 127).last) = decide (0 = 0)) ∧
    ¬(0x80#8).getLsbD (resultCode (base.sequencer.zones.get 127).last) = decide (1 = 0) :=
  ⟨⟨by decide, hand_of rfl, by decide +kernel⟩, base_heard _, by decide, by decide⟩

def faultsListed (n : Nat) : State :=
  base.onFaultUnit fun u =>
    { u with list := (List.range n).map fun z => { fault := .lineOpen z, stamp := 0 }, enabled := true }

def noticesQueued (n : Nat) : State :=
  base.onFaultUnit fun u => { u with queue := List.replicate n ⟨0, .overrun⟩, enabled := true }

theorem test_meets_FaultUnitTakesRequests :
    (∃ e ∈ (faultsListed 1).faultUnit.list, e.fault = .lineOpen 0) ∧
    ((¬∃ e ∈ (faultsListed 63).faultUnit.list, e.fault = .sLink) ∧ (faultsListed 63).faultUnit.list.length < 64) ∧
    ((¬∃ e ∈ (faultsListed 64).faultUnit.list, e.fault = .sLink) ∧ 64 ≤ (faultsListed 64).faultUnit.list.length) ∧
    base.faultUnit.enabled = false ∧
    ((noticesQueued 31).faultUnit.enabled = true ∧ (noticesQueued 31).faultUnit.queue.length < 32) ∧
    32 ≤ (noticesQueued 32).faultUnit.queue.length := by
  refine ⟨by decide, ⟨by decide, by decide⟩, ⟨by decide, by decide⟩, rfl, by decide, by decide⟩

def built : State := withImage building base

theorem built_sound : SoundTables built := sound_of rfl rfl rfl

/-- Eight incidents of other storeys than 0. -/
def crowd : List Incident :=
  (List.range 8).map fun k => { incidentAt .held none with id := k + 1, origin := k + 1 }

theorem test_meets_FireSetsGeneral :
    511 < 512 ∧
    ((base.tables.fields.detections.get 511).mapped = false ∧ base.engine.general = none) ∧
    (base.onEngine fun e => { e with general := some .officer }).engine.general ≠ none ∧
    (Sound built (detectionRef 511) ∧ (built.tables.fields.detections.get 511).mapped = true ∧
      (∀ i ∈ (withIncidents crowd built).engine.incidents, i.origin ≠ (built.tables.fields.detections.get 511).storey) ∧
      8 ≤ (withIncidents crowd built).engine.incidents.length ∧ (withIncidents crowd built).engine.general = none) :=
  ⟨by decide, by decide +kernel, by decide, built_sound _, by decide +kernel, by decide +kernel, by decide, rfl⟩

theorem test_meets_FireCreatesAnIncident :
    SoundTables built ∧ (built.tables.fields.detections.get 511).mapped = true ∧
    (built.tables.fields.detections.get 511).confirmRequired = true ∧
    (built.tables.fields.detections.get 0).mapped = true ∧
    (built.tables.fields.detections.get 0).confirmRequired = false ∧
    (built.tables.fields.plans.get (built.tables.fields.detections.get 0).plan) = none ∧
    (∀ i ∈ (withIncidents (crowd.take 7) built).engine.incidents, i.origin ≠ 0) ∧
    (withIncidents (crowd.take 7) built).engine.incidents.length < 8 :=
  ⟨built_sound, by decide +kernel, by decide +kernel, by decide +kernel, by decide +kernel, by decide +kernel, by decide,
    by decide⟩

theorem test_meets_FireJoinsAnIncident :
    (let s := withIncidents [incidentAt .active none] built
     Sound s (detectionRef 0) ∧ (s.tables.fields.detections.get 0).mapped = true ∧
     s.incident 0 = some (incidentAt .active none) ∧ (incidentAt .active none).origin =
       (s.tables.fields.detections.get 0).storey) ∧
    (let s := withIncidents (crowd.take 1 ++ [incidentAt (.confirming 10) none]) built
     SoundTables s ∧ s.incident 1 = some (incidentAt (.confirming 10) none) ∧
     ∀ q < 1, ∀ j, s.incident q = some j → j.origin ≠ (s.tables.fields.detections.get 511).storey) := by
  refine ⟨⟨sound_of rfl rfl rfl _, by decide +kernel, rfl, by decide +kernel⟩, sound_of rfl rfl rfl, rfl, ?_⟩
  intro q hq j hj
  obtain rfl : q = 0 := by omega
  obtain rfl : j = { incidentAt .held none with id := 1, origin := 1 } := by
    have : some j = some { incidentAt .held none with id := 1, origin := 1 } := hj ▸ rfl
    exact Option.some.inj this
  decide +kernel

/-- An event that an incident holds and one that none does; an expired deadline; an ended timer and one that runs; a
hand-over of each kind. -/
theorem test_meets_OtherEngineEvents :
    (∀ i ∈ base.engine.incidents, 511 ∉ i.dzList.map Prod.fst) ∧
    ((withIncidents [incidentAt .active none] base).incident 0 = some (incidentAt .active none) ∧
      0 ∈ (incidentAt .active none).dzList.map Prod.fst) ∧
    (let s := withIncidents [incidentAt (.confirming 0) none] base
     DemandLaw s.engine ∧ SoundTables s ∧ s.incident 0 = some (incidentAt (.confirming 0) none) ∧
     (incidentAt (.confirming 0) none).id = 1 ∧ (incidentAt (.confirming 0) none).state = .confirming 0) ∧
    (∀ i ∈ (withIncidents [incidentAt (.confirming 1) none] base).engine.incidents, i.id = 1 → i.state ≠ .confirming 0) ∧
    (base.arbiter.planClaims.get 127 ≠ some .allClear) ∧
    (let s := base.onArbiter fun a => { a with planClaims := a.planClaims.set 127 (some .allClear) }
     s.engine.planClaim 127 = none ∧ s.arbiter.planClaims.get 127 = some .allClear) ∧
    (([(127, none), (0, some PlanKind.evacuate)] : List (Nat × Option PlanKind)).map Prod.fst).Nodup := by
  refine ⟨by decide, ⟨rfl, by decide⟩, ⟨demand_of (by decide +kernel), sound_of rfl rfl rfl, rfl, rfl, rfl⟩, by decide,
    by decide +kernel, by decide +kernel, by decide⟩

def stepAt (delay : Nat) : Image :=
  { building with steps := building.steps.set 255 { StepRecord.powerOn with delay := delay, scope := .all } }

/-- Incidents in every state, one with a step not yet due, and a lease at its end; several with a step due; and a lone
incident whose step falls due. -/
theorem test_meets_IncidentTickCounts :
    (let s := withEdit .opened 1
        (withIncidents [incidentAt (.confirming 1) none, incidentAt (.confirming 2) none, incidentAt .active none,
          incidentAt .active (some 255), incidentAt .held (some 0)] (withImage (stepAt 2) base))
     DemandLaw s.engine ∧ ∀ i ∈ s.engine.incidents, i.state = .active → ∀ k, i.nextStep = some k →
       Sound s (stepRef k) ∧ min (i.elapsed + 1) 65535 < (s.tables.fields.steps.get k).delay) ∧
    (let s := withIncidents [incidentAt .active (some 255), { incidentAt .active (some 255) with id := 2, origin := 1 }]
        (withImage (stepAt 1) base)
     SoundTables s ∧ DemandLaw s.engine ∧ min (0 + 1) 65535 = (s.tables.fields.steps.get 255).delay) ∧
    (let s := withIncidents [incidentAt .active (some 255)] (withImage (stepAt 1) base)
     SoundTables s ∧ s.engine.incidents = [incidentAt .active (some 255)] ∧ (incidentAt .active (some 255)).state = .active ∧
     (incidentAt .active (some 255)).nextStep = some 255 ∧
     (s.tables.fields.steps.get 255).delay = (incidentAt .active (some 255)).elapsed + 1) := by
  refine ⟨⟨demand_of (by decide +kernel), fun i hi ha k hk => ⟨sound_of rfl rfl rfl _, ?_⟩⟩,
    ⟨sound_of rfl rfl rfl, demand_of (by decide +kernel), by decide +kernel⟩,
    sound_of rfl rfl rfl, rfl, rfl, rfl, by decide +kernel⟩
  simp only [withEdit, withIncidents, State.onEngine, State.setEdit, State.onTables, List.mem_cons, List.not_mem_nil,
    or_false] at hi
  rcases hi with rfl | rfl | rfl | rfl | rfl
  case inr.inr.inr.inl => cases hk; decide +kernel
  all_goals first | (cases hk; done) | cases ha

theorem test_meets_StepsAreAppliedWhole :
    (let s := withIncidents [incidentAt .active (some 255)] built
     SoundTables s ∧ s.incident 0 = some (incidentAt .active (some 255)) ∧
     (incidentAt .active (some 255)).nextStep = some 255) ∧
    (incidentAt .active none).nextStep = none :=
  ⟨⟨sound_of rfl rfl rfl, rfl, rfl⟩, rfl⟩

/-- The stored code of one entry altered (R5). -/
def flawed (r : EntryRef) (s : State) : State := s.onTables fun t => { t with codeFlips := [(r, 1)] }

/-- A detection zone whose plan cannot be read, one whose pre-alert cannot, and an incident whose step stops at its second
storey at the tick and on its own, the first storey's zone raised. -/
theorem test_meets_plan_faults :
    (Sound (flawed (planRef 0) built) (detectionRef 0) ∧ ¬Sound (flawed (planRef 0) built) (planRef 0) ∧
      (incidentAt (.confirming 10) none).planFault = false) ∧
    (Sound (flawed (storeyRef 0) built) (detectionRef 511) ∧ ¬Sound (flawed (storeyRef 0) built) (storeyRef 0) ∧
      (built.tables.fields.detections.get 511).preAlert = true) ∧
    (let s := withIncidents [incidentAt .active (some 255)] (flawed (storeyRef 1) (withImage (stepAt 1) base))
     s.incident 0 = some (incidentAt .active (some 255)) ∧ Sound s (stepRef 255) ∧ Sound s headerRef ∧
     (stepRange s.tables.fields.header.storeyCount 0 (s.tables.fields.steps.get 255)).storeys = [0] ++ 1 :: [] ∧
     Sound s (storeyRef 0) ∧ ¬Sound s (storeyRef 1) ∧ s.engine.general = none ∧
     ((incidentAt .active (some 255)).ticked s).any Incident.planFault = true ∧
     ((incidentAt .active (some 255)).ticked s).map (fun i => (i.demand.get 0, i.demand.get 1)) = some (.alert, .none)) := by
  refine ⟨⟨?_, fun h => absurd h.2 (by decide +kernel), rfl⟩, ⟨?_, fun h => absurd h.2 (by decide +kernel), by decide +kernel⟩,
    rfl, ?_, ?_, by decide +kernel, ?_, fun h => absurd h.2 (by decide +kernel), rfl, by decide +kernel, by decide +kernel⟩
  all_goals exact ⟨by decide +kernel, by decide +kernel⟩

theorem test_meets_StepRangesCountStoreys :
    { step 0 1 false with scope := .all }.scope = .all ∧ (step (-95) 1 true).scope = .relative ∧
    1 ≤ (step (-95) 1 true).length :=
  ⟨rfl, rfl, by decide⟩

/-- A RESUME whose next step is due already, and one whose next step is damaged. -/
theorem test_meets_HoldResumeAndAdvance_due :
    (let s := withIncidents [incidentAt .held (some 255)] (withImage (stepAt 0) base)
     Heard sender .operate s ∧ SoundTables s ∧ DemandLaw s.engine ∧ s.incident 0 = some (incidentAt .held (some 255)) ∧
     ¬(incidentAt .held (some 255)).elapsed < (s.tables.fields.steps.get 255).delay) ∧
    (let s := withIncidents [incidentAt .held (some 255)] (base.onTables fun t => { t with codeFlips := [(stepRef 255, 1)] })
     Heard sender .operate s ∧ s.incident 0 = some (incidentAt .held (some 255)) ∧ ¬Sound (lookedUp sender s) (stepRef 255)) :=
  ⟨⟨heard_of _ _ rfl (by decide) (by decide +kernel), sound_of rfl rfl rfl, demand_of (by decide +kernel), rfl,
    by decide +kernel⟩, heard_like _ _ rfl rfl rfl, rfl, fun h => absurd h.2 (by decide +kernel)⟩

theorem test_meets_HoldResumeAndAdvance :
    (Heard sender .operate base ∧ ∀ i ∈ base.engine.incidents, i.id ≠ 1) ∧
    (∀ state next, (let s := withIncidents [incidentAt state next] base
      Heard sender .operate s ∧ SoundTables s ∧ s.incident 0 = some (incidentAt state next) ∧
      (incidentAt state next).id = 1 ∧ (incidentAt state next).state = state ∧ (incidentAt state next).nextStep = next)) ∧
    ¬Sound (withIncidents [incidentAt .held (some 255)] (base.setMark (stepRef 255))) (stepRef 255) := by
  exact ⟨⟨base_heard _, by decide⟩, fun state next => ⟨heard_like (withIncidents [incidentAt state next] base) _ rfl
    rfl rfl, sound_of rfl rfl rfl, rfl, rfl, rfl, rfl⟩, fun h => absurd h.1 (by decide +kernel)⟩

theorem test_meets_ResetsAndEvacuateAll :
    (let s := withIncidents [incidentAt .held none] base
     Heard sender .operate s ∧ DemandLaw s.engine ∧ SoundTables s ∧ s.incident 0 = some (incidentAt .held none) ∧
     (incidentAt .held none).id = 1) ∧
    base.engine.general = none ∧
    (let s := base.onEngine fun e => { e with general := some .officer }
     Heard sender .operate s ∧ SoundTables s ∧ s.engine.general ≠ none) :=
  ⟨⟨heard_of _ _ rfl (by decide) (by decide +kernel), demand_of (by decide +kernel), sound_of rfl rfl rfl, rfl, rfl⟩, rfl,
    heard_of _ _ rfl (by decide) (by decide +kernel), sound_of rfl rfl rfl, by decide⟩

/-- Sixteen claims, on sixteen channels. -/
def crowded : State :=
  base.onArbiter fun a => { a with claims := a.claims.mapIdx fun k _ => some { claimAt 1 .pending with channel := k } }

/-- One claim of each refusal of R85, each passing the checks before. -/
theorem test_meets_ClaimsRefusedInOrder :
    8 ≤ full.router.places.length ∧
    (State.reset.router.places.length < 8 ∧ HandLaw State.reset.router ∧ State.reset.router.address = 0) ∧
    (let s := withImage monitors base
     s.router.places.length < 8 ∧ HandLaw s.router ∧ s.router.address ≠ 0 ∧
     Authority.operate.meets (authorityOf 9 s).2 = false) ∧
    (Heard sender .operate base ∧ (¬(3 = 1 ∨ 3 = 2 ∨ 3 = 6 ∨ 3 = 7)) ∧ ¬(32 ≤ 31) ∧ ¬(127 + 2 ≤ 128) ∧
      ¬((0 : BitVec 16) ≠ 0)) ∧
    (Heard sender .operate (withClaim 15 (claimAt 1 .pending) base) ∧
      (withClaim 15 (claimAt 1 .pending) base).arbiter.claims.get 15 = some (claimAt 1 .pending) ∧
      (claimAt 1 .pending).channel = 3) ∧
    (Heard sender .operate crowded ∧ ∀ k < 16, crowded.arbiter.claims.get k ≠ none) ∧
    ∀ k < 16, ∀ c, crowded.arbiter.claims.get k = some c → c.channel ≠ 31 := by
  refine ⟨by decide, ⟨by decide, hand_of rfl, rfl⟩, ⟨by decide, hand_of rfl, by decide, by decide +kernel⟩,
    ⟨base_heard _, by decide, by decide, by decide, by decide⟩,
    ⟨heard_of _ _ rfl (by decide) (by decide +kernel), by decide, rfl⟩,
    ⟨heard_of _ _ rfl (by decide) (by decide +kernel), by decide⟩, fun k _ c hc =>
    of_decide_eq_true (claims_all (p := fun c => decide (c.channel ≠ 31)) (by decide) hc)⟩

/-- The last slot free on the last channel, with and without a zone to win; and a fire officer's claim. -/
theorem test_meets_ClaimsAccepted :
    (let s := crowded.onArbiter fun a => { a with claims := a.claims.set 15 none }
     Heard sender .operate s ∧ SoundTables s ∧ selectionOf (.span 127 1) = some (.span 127 1) ∧
     (∀ j < 16, ∀ c, s.arbiter.claims.get j = some c → c.channel ≠ 31) ∧ s.arbiter.claims.get 15 = none ∧
     (∀ j < 15, s.arbiter.claims.get j ≠ none) ∧ selects s (.span 127 1) 127 = true ∧
     eligible 6 (s.arbiter.masks.get 127) = true ∧ (winner s 127).2 < 6) ∧
    (let s := base.onArbiter fun a => { a with masks := .const 6 }
     Heard sender .operate s ∧ SoundTables s ∧ (∀ z < 128, eligible 6 (s.arbiter.masks.get z) = false) ∧
     s.arbiter.claims.get 0 = none ∧ eligible 7 (s.arbiter.masks.get 127) = true) := by
  refine ⟨⟨heard_of _ _ rfl (by decide) (by decide +kernel), sound_of rfl rfl rfl, by decide, fun j _ c hc => ?_, by decide,
    by decide, by decide, by decide, by decide +kernel⟩, heard_of _ _ rfl (by decide) (by decide +kernel),
    sound_of rfl rfl rfl, by decide +kernel, by decide, by decide⟩
  exact of_decide_eq_true (claims_all (p := fun c => decide (c.channel ≠ 31)) (by decide) hc)

/-- Two claims whose stamps stand at 3 and 65535, the one ON-AIR. -/
def stamped : State :=
  (withClaim 15 { claimAt 7 (.onAir 65535) with channel := 4, arrival := 3 }
    (withClaim 2 { claimAt 1 .pending with arrival := 65535 } base)).onArbiter fun a =>
    { a with arrivalCounter := 65535, onAirCounter := 65535 }

/-- Counters at their end and below it, stamps lawfully held, and a renumbering that keeps their order. -/
theorem test_meets_ClaimsAccepted_stamps :
    StampLaw stamped.arbiter ∧ stamped.arbiter.arrivalCounter = 65535 ∧ stamped.arbiter.onAirCounter = 65535 ∧
    base.arbiter.arrivalCounter ≠ 65535 ∧ base.arbiter.onAirCounter ≠ 65535 ∧
    (stamped.arbiter.nextArrival.claims.get 15).map Claim.arrival = some 1 ∧
    (stamped.arbiter.nextArrival.claims.get 2).map Claim.arrival = some 2 ∧
    stamped.arbiter.nextArrival.arrivalCounter = 3 ∧ stamped.arbiter.nextOnAir.onAirCounter = 2 :=
  ⟨stamps_of (by decide +kernel), rfl, rfl, by decide, by decide, by decide +kernel, by decide +kernel, by decide +kernel,
    by decide +kernel⟩

/-- Two PENDING claims in the order of their stamps, the one with a zone to win and the other, on a disabled zone, without. -/
def waiting : State :=
  (withClaim 15 { claimAt 2 .pending with channel := 4, selection := .span 127 1, arrival := 2 }
    (withClaim 2 { claimAt 1 .pending with arrival := 1 } base)).onArbiter fun a =>
    { a with masks := a.masks.set 0 6, arrivalCounter := 2 }

theorem test_meets_tested_claims :
    StampLaw waiting.arbiter ∧ SoundTables waiting ∧
    (∃ c, waiting.arbiter.claims.get 15 = some c ∧ c.state = .pending ∧ Wins waiting c) ∧
    (∃ c, waiting.arbiter.claims.get 2 = some c ∧ c.state = .pending ∧ ¬Wins waiting c) ∧
    (∃ z < 128, selects waiting (.span 0 1) z = true) := by
  refine ⟨stamps_of (by decide +kernel), sound_of rfl rfl rfl, ⟨_, rfl, rfl, 127, by decide, by decide, by decide,
    by decide +kernel⟩, ⟨_, rfl, rfl, ?_⟩, 0, by decide, by decide⟩
  rintro ⟨z, _, hs, he, _⟩
  obtain rfl : z = 0 := by simp [claimAt, selects] at hs; exact hs
  exact absurd he (by decide)

/-- An older PENDING claim on zone 0 under mask 3, the record of zone 0 damaged. -/
def masked : State :=
  (withClaim 2 (claimAt 2 .pending) base).onArbiter fun a => { a with masks := a.masks.set 0 3, arrivalCounter := 1 }

/-- A group claim whose reading frees the older claim's zone is tested first all the same (R86, R88). -/
theorem test_claim_tested_at_once :
    let t := claim sender 2 4 (.groups 1) (masked.onTables fun t => { t with codeFlips := [(zoneRef 0, 1)] })
    (t.arbiter.claims.get 0).map Claim.state = some (.confirming 1 3200) ∧
    (t.arbiter.claims.get 2).map Claim.state = some (.confirming 2 3200) ∧ t.marked (zoneRef 0) = true := by
  decide +kernel

def confirmingAt (timer : Nat) : State := withClaim 15 (claimAt 2 (.confirming 9 timer)) base

def waitingAt (timer : Nat) : State := withClaim 15 (claimAt 2 (.waiting timer)) base

theorem test_meets_ReleasesAndClaimTimers :
    ((confirmingAt 0).arbiter.claims.get 15 = some (claimAt 2 (.confirming 9 0)) ∧
      (claimAt 2 (.confirming 9 0)).station = 5 ∧ SoundTables (confirmingAt 0)) ∧
    (∀ c, (confirmingAt 0).arbiter.claims.get 15 = some c → c.station ≠ 6) ∧
    (∀ c number, (confirmingAt 1).arbiter.claims.get 15 = some c → c.state ≠ .confirming number 0) ∧
    ((waitingAt 0).arbiter.claims.get 15 = some (claimAt 2 (.waiting 0))) ∧
    ∀ c, (waitingAt 1).arbiter.claims.get 15 = some c → c.state ≠ .waiting 0 := by
  refine ⟨⟨by decide, rfl, sound_of rfl rfl rfl⟩, fun c hc => ?_, fun c n hc => ?_, by decide, fun c hc => ?_⟩
  · exact of_decide_eq_true (claims_all (p := fun c => decide (c.station ≠ 6)) (by decide) hc)
  · have := of_decide_eq_true (claims_all (p := fun c => decide (c.state = .confirming 9 1)) (by decide) hc)
    rw [this]; simp
  · exact of_decide_eq_true (claims_all (p := fun c => decide (c.state ≠ .waiting 0)) (by decide) hc)

/-- An answer from another station; and taken ones below and at the retry limit, the channel being ABSENT. -/
theorem test_meets_AnswersThatEndOrWait :
    (∀ c timer, (confirmingAt 1).arbiter.claims.get 15 = some c → c.state = .confirming 9 timer → c.station ≠ 6) ∧
    ((confirmingAt 1).arbiter.claims.get 15 = some (claimAt 2 (.confirming 9 1)) ∧
      (claimAt 2 (.confirming 9 1)).station = 5 ∧ (claimAt 2 (.confirming 9 1)).waitCount < 3 ∧
      (confirmingAt 1).crosspoint.presence.get 3 ≠ .present ∧ SoundTables (confirmingAt 1)) ∧
    (let c := { claimAt 2 (.confirming 9 1) with waitCount := 3 }
     (withClaim 15 c base).arbiter.claims.get 15 = some c ∧ 3 ≤ c.waitCount) := by
  refine ⟨fun c _ hc _ => ?_, ⟨by decide, rfl, by decide, by decide, sound_of rfl rfl rfl⟩, by decide, by decide⟩
  exact of_decide_eq_true (claims_all (p := fun c => decide (c.station ≠ 6)) (by decide) hc)

theorem test_meets_AnswersThatPutOnAir :
    (let s := (confirmingAt 1).onCrosspoint fun x => { x with presence := x.presence.set 3 .present }
     s.arbiter.claims.get 15 = some (claimAt 2 (.confirming 9 1)) ∧ s.crosspoint.presence.get 3 = .present) ∧
    (Sound (confirmingAt 1) (defaultRef 1) ∧
      ¬∃ j < 16, j ≠ 15 ∧ ∃ d, (confirmingAt 1).arbiter.claims.get j = some d ∧
        d.channel = (confirmingAt 1).tables.fields.defaults.get 1) ∧
    (let s := withClaim 0 { claimAt 1 .pending with channel := 0 } (confirmingAt 1)
     ∃ j < 16, j ≠ 15 ∧ ∃ d, s.arbiter.claims.get j = some d ∧ d.channel = s.tables.fields.defaults.get 1) ∧
    ¬Sound ((confirmingAt 1).setMark (defaultRef 1)) (defaultRef 1) ∧
    (let s := (confirmingAt 1).onTables fun t => { t with codeFlips := [(defaultRef 1, 1)] }
     s.arbiter.claims.get 15 = some (claimAt 2 (.confirming 9 1)) ∧ ¬Sound s (defaultRef 1) ∧
     ∀ r, r ≠ defaultRef 1 → Sound s r) := by
  refine ⟨by decide, ⟨sound_of rfl rfl rfl _, ?_⟩, ⟨0, by decide, by decide, _, rfl, by decide⟩,
    fun h => absurd h.1 (by decide +kernel), by decide, fun h => absurd h.2 (by decide +kernel), sound_beside rfl rfl rfl⟩
  rintro ⟨j, _, _, d, hd, hc⟩
  exact of_decide_eq_true (claims_all (p := fun c => decide (c.channel ≠ 0)) (by decide) hd) hc

/-- Two claims of one level on zone 0, a plan claim alone, and no candidate. -/
theorem test_meets_WinnerIsBestCandidate :
    (let s := withClaim 3 (claimAt 7 (.onAir 8)) (withClaim 2 (claimAt 7 (.onAir 9)) base)
     (winner s 0) = (.slot 2, 7)) ∧
    (let s := withClaim 3 (claimAt 6 (.onAir 8)) (withClaim 2 (claimAt 6 (.onAir 9)) base)
     (winner s 0) = (.slot 3, 6)) ∧
    winner (base.onArbiter fun a => { a with planClaims := a.planClaims.set 127 (some .allClear) }) 127 = (.plan, 3) ∧
    winner base 127 = (.none, 0) := by
  decide +kernel

theorem test_meets_MasksAndTrimsAreSet :
    Heard sender .operate base ∧ SoundTables base ∧ (127 + 1 ≤ 128 ∧ 128 < 127 + 2 ∧ 128 < 128 + 1) ∧
    (base.arbiter.masks.get 127 < 3 ∧
      ((base.onArbiter fun a => { a with masks := .const 3 }).arbiter.masks.get 127 = 3)) ∧
    (Heard sender .operate (base.onArbiter fun a => { a with masks := .const 3 })) :=
  ⟨base_heard _, base_sound, by decide, by decide, heard_of _ _ rfl (by decide) (by decide +kernel)⟩

def reservedAt (z : Nat) : State := base.onArbiter fun a => { a with reserved := some z }

/-- Zone 0 under a paging claim on air. -/
def paged : State := withHolder 0 (.slot 0) (withClaim 0 { claimAt 2 (.onAir 1) with zonesHeld := 1 } base)

/-- A claim ON-AIR whose release frees a zone, its record held beside that of a zone under the plan. -/
theorem test_meets_HolderLawKept_records :
    let s := (withHolder 127 .plan
      (paged.onArbiter fun a => { a with planClaims := a.planClaims.set 127 (some .allClear) })).onCrosspoint fun x =>
        { x with records := (x.records.set 0 (.slot 0 3)).set 127 (.plan .allClear) }
    (∀ z < 128, HolderLaw s z) ∧ (∀ z < 128, RecordLaw s z) ∧ SoundTables s ∧
    s.arbiter.claims.get 0 = some { claimAt 2 (.onAir 1) with zonesHeld := 1 } :=
  ⟨holders_of (by decide +kernel), records_of (by decide +kernel), sound_of rfl rfl rfl, by decide⟩

theorem test_meets_ReservationsHeldAndEnded :
    (SoundTables base ∧ base.arbiter.reserved = none ∧ base.arbiter.holders.get 127 = .none ∧
      ∀ y < 128, HolderLaw base y) ∧
    ((reservedAt 127).arbiter.reserved = some 127 ∧ ∀ y < 128, HolderLaw (reservedAt 127) y) ∧
    (paged.arbiter.reserved = none ∧ paged.arbiter.holders.get 0 ≠ .none ∧ ∀ y < 128, HolderLaw paged y) ∧
    (reservedAt 126).arbiter.reserved = some 126 ∧ (reservedAt 126).arbiter.reserved ≠ some 127 :=
  ⟨⟨base_sound, rfl, by decide, holders_of (by decide +kernel)⟩, ⟨rfl, holders_of (by decide +kernel)⟩,
    ⟨rfl, by decide, holders_of (by decide +kernel)⟩, rfl, by decide⟩

theorem test_meets_PresenceChanges :
    (channelAt .present 63 base).crosspoint.runs.get 31 < 64 ∧
    (∀ p ∈ [Presence.absent, .lost, .present],
      64 ≤ (channelAt p 64 base).crosspoint.runs.get 31 ∧ (channelAt p 64 base).crosspoint.presence.get 31 = p) ∧
    (∀ k < 16, ∀ d, (channelAt .present 64 base).arbiter.claims.get k = some d → d.channel ≠ 31) := by
  refine ⟨by decide, by decide, fun k _ d hd => ?_⟩
  exact of_decide_eq_true (claims_all (p := fun c => decide (c.channel ≠ 31)) (by decide) hd)

theorem test_meets_StepsAreOwed :
    (withStep (.sample 127 1) base).sequencer.step.pilotZone ≠ none ∧
    ((withStep (.deferred 127 2) base).sequencer.step = .deferred 127 2 ∧ 2 + 1 < headerValue Header.deferralLimit base) ∧
    (Heard sender .operate (withStep (.pilot 0) base) ∧ (lookedUp sender (withStep (.pilot 0) base)).sequencer.step ≠ .idle) ∧
    (Heard sender .operate base ∧ SoundTables base ∧ ZoneLaw base ∧ base.sequencer.step = .idle ∧
      base.sequencer.latch = false ∧ base.sequencer.overdue = 0 ∧
      ∀ z < 128, (base.tables.fields.zones.get z).supervised = false) := by
  refine ⟨by decide, ⟨rfl, by decide +kernel⟩, ⟨heard_of _ _ rfl (by decide) (by decide +kernel), by decide +kernel⟩,
    base_heard _, base_sound, ⟨by decide, by decide, by decide, fun _ h => nomatch h⟩, rfl, rfl, rfl, by decide +kernel⟩

/-- Every zone supervised. -/
def supervised : Image := { Image.powerOn with zones := .const { ZoneRecord.powerOn with supervised := true } }

def watched : State := setAvailable true (withImage supervised base)

/-- Zone 0 under an EVACUATE plan claim. -/
def evacuated (s : State) : State :=
  withHolder 0 .plan (s.onArbiter fun a => { a with planClaims := a.planClaims.set 0 (some .evacuate) })

theorem test_meets_StepsStart :
    (SoundTables base ∧ (∀ z < 128, HolderLaw base z) ∧ base.arbiter.reserved = none ∧ base.sequencer.step = .idle ∧
      ∀ z < 128, (base.tables.fields.zones.get z).supervised = false) ∧
    (let s := setAvailable false watched
     SoundTables s ∧ (∀ z < 128, HolderLaw s z) ∧ s.sequencer.reportsAvailable = false ∧
     (s.tables.fields.zones.get ((s.sequencer.pointer + 0) % 128)).supervised = true) ∧
    (let s := evacuated watched
     SoundTables s ∧ (∀ z < 128, HolderLaw s z) ∧ s.sequencer.reportsAvailable = true ∧ 3 ≤ holderLevel s 0 ∧
     s.arbiter.holders.get 0 ≠ .none) ∧
    (let s := withHolder 0 (.slot 0) (withClaim 0 { claimAt 2 (.onAir 1) with zonesHeld := 1 } watched)
     SoundTables s ∧ (∀ z < 128, HolderLaw s z) ∧ s.arbiter.holders.get 0 ≠ .none ∧ holderLevel s 0 = 2) ∧
    (SoundTables watched ∧ ZoneLaw watched ∧ (∀ z < 128, HolderLaw watched z) ∧ watched.arbiter.holders.get 0 = .none) := by
  refine ⟨⟨base_sound, holders_of (by decide +kernel), rfl, rfl, by decide +kernel⟩,
    ⟨sound_of rfl rfl rfl, holders_of (by decide +kernel), rfl, by decide +kernel⟩,
    ⟨sound_of rfl rfl rfl, holders_of (by decide +kernel), rfl, by decide, by decide⟩,
    ⟨sound_of rfl rfl rfl, holders_of (by decide +kernel), by decide, by decide⟩, sound_of rfl rfl rfl,
    ⟨by decide, by decide, by decide, fun _ h => nomatch h⟩, holders_of (by decide +kernel), by decide⟩

theorem test_meets_PilotStepsMoveOn :
    (∀ p, (withStep p base).sequencer.step = p) ∧ (∀ r, base.zPort.reports.get 127 = some r → r.valid = false) ∧
    (StepState.deferred 127 0).pilotZone = none ∧ (StepState.sample 127 0).pilotZone = some 127 ∧
    (∀ y, StepState.settle 127 1 ≠ .settle y 0) ∧ ∀ y, StepState.sample 127 1 ≠ .sample y 0 := by
  refine ⟨fun _ => rfl, fun r h => ?_, rfl, rfl, fun y h => ?_, fun y h => ?_⟩
  · rw [show base.zPort.reports.get 127 = none from Tab.get_const _ (by decide)] at h; cases h
  · cases h
  · cases h

def goodReport : Report := { valid := true, load := 255, earth := false, ampFailed := false }

theorem test_meets_PilotStepsEnd :
    (∀ p, (let s := withStep p (reservedAt 127)
      SoundTables s ∧ s.arbiter.reserved = some 127 ∧ s.sequencer.latch = false ∧ s.sequencer.overdue = 0 ∧
      s.sequencer.step = p)) ∧
    (∀ y < 128, HolderLaw (withStep (.sample 127 0) (reservedAt 127)) y) ∧
    (let s := withStep (.sample 127 1)
        ((reservedAt 127).onZPort fun p => { p with reports := p.reports.set 127 (some goodReport) })
     s.zPort.reports.get 127 = some goodReport ∧ goodReport.valid = true ∧ ∀ y < 128, HolderLaw s y) ∧
    (∀ r, (reservedAt 127).zPort.reports.get 127 = some r → r.valid = false) := by
  refine ⟨fun p => ⟨sound_of rfl rfl rfl, rfl, rfl, rfl, rfl⟩, holders_of (by decide +kernel),
    ⟨by decide, rfl, holders_of (by decide +kernel)⟩, fun r h => ?_⟩
  rw [show (reservedAt 127).zPort.reports.get 127 = none from Tab.get_const _ (by decide)] at h; cases h

/-- A tick at the deferral limit, one step short of the most that can be owed; and a deferred step without return reports. -/
theorem test_meets_deferral :
    (let s := (withStep (.deferred 127 3) watched).onSequencer fun q => { q with overdue := 254 }
     SoundTables s ∧ s.sequencer.step = .deferred 127 3 ∧ s.tables.fields.header.deferralLimit ≤ 3 + 1 ∧
     s.sequencer.overdue < 255) ∧
    (let s := withStep (.deferred 127 0) (setAvailable false watched)
     SoundTables s ∧ s.sequencer.step = .deferred 127 0 ∧ s.sequencer.latch = false ∧ s.sequencer.overdue = 0 ∧
     s.sequencer.reportsAvailable = false) :=
  ⟨⟨sound_of rfl rfl rfl, rfl, by decide, by decide⟩, sound_of rfl rfl rfl, rfl, rfl, rfl, rfl⟩

theorem test_meets_DeferredStepsEnd :
    (∀ n, (withStep (.pilot 127) base).sequencer.step ≠ .deferred 127 n) ∧
    (let s := withStep (.deferred 127 4) watched
     s.sequencer.step = .deferred 127 4 ∧ s.sequencer.latch = false ∧ s.sequencer.overdue = 0 ∧ SoundTables s ∧
     (∀ y < 128, HolderLaw s y) ∧ s.arbiter.reserved = none ∧ s.arbiter.holders.get 127 = .none ∧
     s.sequencer.reportsAvailable = true ∧ s.tables.fields.header.deferralLimit ≤ 4) ∧
    3 < (withStep (.deferred 127 3) watched).tables.fields.header.deferralLimit ∧
    ((withStep (.deferred 127 4) (reservedAt 127)).arbiter.reserved = some 127) ∧
    (withStep (.pilot 127) base).sequencer.step ≠ .idle ∧ base.sequencer.step = .idle ∧
    base.sequencer.step.pilotZone = none := by
  refine ⟨(fun _ h => nomatch h), ⟨rfl, rfl, rfl, sound_of rfl rfl rfl, holders_of (by decide +kernel), rfl, by decide, rfl,
    by decide⟩, by decide, rfl, by decide, rfl, rfl⟩

theorem test_meets_ReportsAreClassified :
    Sound base (zoneRef 127) ∧ ¬Sound (base.setMark (zoneRef 127)) (zoneRef 127) :=
  ⟨base_sound _, fun h => absurd h.1 (by decide +kernel)⟩

theorem test_meets_ResultsAreCounted :
    (let e : ZoneResult := ⟨.failed .earth, 1, some .earth, 0⟩
     0 < e.failures ∧ e.counted = some .earth ∧ e.counted ≠ some .noReport) ∧
    (let s := base.onSequencer fun q => { q with zones := q.zones.set 127 ⟨.normal, 0, none, 2⟩ }
     (s.sequencer.zones.get 127).normals = 2) ∧ (base.sequencer.zones.get 127).normals ≠ 2 := by
  decide

/-- A sound line, and a line whose one header entry is not sound. -/
theorem test_meets_ScrubLineMarksItsEntries :
    (∀ r ∈ scrubEntries 127, Sound base r) ∧
    (headerRef ∈ scrubEntries 67 ∧ headerRef.table ≠ .zoneRecord ∧ ¬Sound damaged headerRef ∧
      ∀ x ∈ scrubEntries 67, x ≠ headerRef → Sound damaged x) := by
  have clear : ∀ x ∈ scrubEntries 67, x ≠ headerRef → damaged.marked x = false ∧ damaged.passes x = true := by
    decide +kernel
  exact ⟨fun r _ => base_sound r, by decide, by decide, fun h => absurd h.2 (by decide +kernel), fun x hx hn => clear x hx hn⟩

/-- Zone 127 with mask 3, the stored code of its record altered. -/
def damagedZone : State :=
  (base.onArbiter fun a => { a with masks := a.masks.set 127 3 }).onTables fun t =>
    { t with codeFlips := [(zoneRef 127, 1)] }

/-- A line whose one Zone Record is damaged, its zone disabled, everything else being sound; and a record marked
before. -/
theorem test_meets_ScrubLineMarksItsEntries_zone :
    (zoneRef 127 ∈ scrubEntries 127 ∧ ¬Sound damagedZone (zoneRef 127) ∧
      ∀ x ∈ scrubEntries 127, x ≠ zoneRef 127 → Sound damagedZone x) ∧
    (damagedZone.marked (zoneRef 127) = false ∧ damagedZone.passes (zoneRef 127) = false ∧
      3 ≤ damagedZone.arbiter.masks.get 127 ∧ damagedZone.faultUnit.list.length < 64 ∧
      (∀ y < 128, HolderLaw damagedZone y) ∧ ∀ r, r ≠ zoneRef 127 → Sound damagedZone r) ∧
    (base.setMark (zoneRef 127)).marked (zoneRef 127) = true := by
  have beside : ∀ r, r ≠ zoneRef 127 → Sound damagedZone r := sound_beside rfl rfl rfl
  exact ⟨⟨by decide, fun h => absurd h.2 (by decide +kernel), fun x _ => beside x⟩,
    ⟨by decide +kernel, by decide +kernel, by decide, by decide, holders_of (by decide +kernel), beside⟩,
    by decide +kernel⟩

theorem edit_heard (phase : EditPhase) (lease : Nat) : Heard sender .configure (withEdit phase lease base) :=
  heard_like (withEdit phase lease base) _ rfl rfl rfl

theorem test_meets_EditsAreOpenedAndWritten :
    (Heard sender .configure base ∧ base.tables.edit = none ∧ base.engine.incidents = [] ∧ base.engine.general = none ∧
      SoundTables base) ∧
    ¬((withIncidents crowd base).engine.incidents = [] ∧ base.engine.general = none) ∧
    (∀ phase, Heard sender .configure (withEdit phase 1 base) ∧
      (withEdit phase 1 base).tables.edit = some ⟨5, 1, .powerOn, phase⟩) ∧
    (tableOfNumber 8 = some .authority ∧ tableEntries .authority ≤ 32 ∧ 31 < tableEntries .authority) ∧
    ((⟨5, 1, .powerOn, .opened⟩ : Edit).owner = sender.station) ∧
    (readEntry .authority [2] = none ∧ readEntry .authority [0] = some (.authority none)) ∧
    (tableEntries .defaultChannel = 3 ∧
      ([2, 2 / 4 * 4 + (2 + 1) % 4, 2 / 4 * 4 + (2 + 2) % 4, 2 / 4 * 4 + (2 + 3) % 4].filter
        fun i => decide (i < tableEntries .defaultChannel)) = [2] ++ 0 :: [1] ∧
      readEntry .defaultChannel (List.replicate 12 31) ≠ none ∧ readEntry .defaultChannel (List.replicate 12 32) = none) :=
  ⟨⟨base_heard _, rfl, rfl, rfl, base_sound⟩, by decide, fun phase => ⟨edit_heard _ _, rfl⟩, by decide, rfl,
    by decide, rfl, by decide, by decide, rfl⟩

/-- An edit begun on a damaged image. -/
theorem test_meets_EditsAreOpenedAndWritten_damaged :
    Heard sender .configure damagedZone ∧ damagedZone.tables.edit = none ∧ damagedZone.engine.incidents = [] ∧
    damagedZone.engine.general = none ∧ damagedZone.marked (zoneRef 127) = false ∧
    damagedZone.passes (zoneRef 127) = false :=
  ⟨heard_of _ _ rfl (by decide) (by decide +kernel), rfl, rfl, rfl, by decide +kernel, by decide +kernel⟩

theorem test_meets_EditsAreCommittedAndCancelled :
    (Heard sender .configure base ∧ base.tables.edit = none) ∧
    (∀ phase, Heard sender .configure (withEdit phase 1 base) ∧
      (withEdit phase 1 base).tables.edit = some ⟨5, 1, .powerOn, phase⟩) ∧
    (⟨6, 1, .powerOn, .opened⟩ : Edit).owner ≠ sender.station ∧
    validate Image.powerOn = none ∧
    (∃ f, validate { Image.powerOn with authorities := Image.powerOn.authorities.set 1 (some ⟨9, .monitor⟩) } = some f) :=
  ⟨⟨base_heard _, rfl⟩, fun _ => ⟨edit_heard _ _, rfl⟩, by decide, by decide +kernel,
    ⟨{ entry := authorityRef 1, reason := .order }, by decide +kernel⟩⟩

theorem test_meets_InstallReplacesTheImage :
    (∀ e, base.tables.edit = some e → e.phase ≠ .passed) ∧
    (withEdit .passed 1 base).tables.edit = some ⟨5, 1, .powerOn, .passed⟩ ∧
    (let s := base.onRouter fun r => { r with places := [.filled answerOf, .reserved .commit sender] }
     s.router.places = [.filled answerOf] ++ .reserved .commit sender :: [] ∧
     ∀ x, .reserved .commit x ∉ [Place.filled answerOf]) :=
  ⟨(fun _ h => nomatch h), rfl, rfl, by simp⟩

theorem test_meets_EditsEndUnasked :
    base.tables.edit = none ∧ (⟨5, 1, .powerOn, .opened⟩ : Edit).lease ≠ 0 ∧
    (∀ phase, (withEdit phase 0 base).tables.edit = some ⟨5, 0, .powerOn, phase⟩) :=
  ⟨rfl, by decide, fun _ => rfl⟩

/-- The refused state; the demand and the plan claims agreeing; and an edit in each phase, with and without the place of
its commit. -/
theorem test_meets_RestartStartsAfresh :
    (Heard sender .configure base ∧ DemandLaw base.engine ∧ PlanClaimLaw base ∧ base.engine.incidents = [] ∧
      base.engine.general = none ∧ (∀ y < 128, base.crosspoint.records.get y = .none) ∧
      base.faultUnit.enabled = false) ∧
    (Heard sender .configure (withIncidents crowd base) ∧ (withIncidents crowd base).engine.incidents ≠ []) ∧
    (∀ phase, Heard sender .configure (withEdit phase 1 base) ∧
      (withEdit phase 1 base).tables.edit = some ⟨5, 1, .powerOn, phase⟩ ∧
      ∀ x, .reserved .commit x ∉ (withEdit phase 1 base).router.places) ∧
    (let s := (withEdit .passed 1 base).onRouter fun r => { r with places := [.filled answerOf, .reserved .commit sender] }
     s.router.places = [.filled answerOf] ++ .reserved .commit sender :: [] ∧ s.router.places.length < 8 ∧
     HandLaw s.router ∧ s.router.address ≠ 0) := by
  refine ⟨⟨base_heard _, demand_of (by decide +kernel), ?_, rfl, rfl, by decide, rfl⟩,
    ⟨heard_of _ _ rfl (by decide) (by decide +kernel), by decide⟩,
    fun phase => ⟨edit_heard _ _, rfl, fun x h => nomatch h⟩, rfl, by decide, ?_, by decide⟩
  · intro z hz; revert z; decide +kernel
  · intro p hp q
    rcases List.mem_cons.mp hp with rfl | hp
    · nofun
    · rcases List.mem_singleton.mp hp with rfl
      nofun

end Sys2Proof.Tests
end

section
/-! SUPPORT. The range of a step: the bounds and clips of R28 to R30 under names of their own, and the count of its storeys. -/

namespace Sys2Proof.Machine

/-! ### The storeys of a range -/

theorem StepRange.storeys_of_none {r : StepRange} (h : r.range = none) : r.storeys = [] := by
  simp [StepRange.storeys, h]

theorem StepRange.length_storeys {r : StepRange} {low high : Nat} (h : r.range = some (low, high)) :
    r.storeys.length = high + 1 - low := by
  simp [StepRange.storeys, h]

theorem StepRange.le_high_of_mem_storeys {r : StepRange} {low high storey : Nat} (h : r.range = some (low, high))
    (hmem : storey ∈ r.storeys) : storey ≤ high := by
  simp only [StepRange.storeys, h, List.mem_map, List.mem_range] at hmem
  obtain ⟨k, hk, rfl⟩ := hmem
  omega

/-- The storeys reached and the storeys unplaced together are `n`, and every storey reached is in the building. -/
def StepRange.Counts (count n : Nat) (r : StepRange) : Prop :=
  r.storeys.length + r.unplaced = n ∧ ∀ storey ∈ r.storeys, storey < count

theorem StepRange.counts_of_none {r : StepRange} {count : Nat} (h : r.range = none) : r.Counts count r.unplaced := by
  simp [StepRange.Counts, storeys_of_none h]

theorem StepRange.counts_of_some {r : StepRange} {count n : Nat} {low high : Int}
    (h : r.range = some (low.toNat, high.toNat)) (hlow : 0 ≤ low) (hle : low ≤ high) (hhigh : high < count)
    (hsum : high - low + 1 + r.unplaced = n) : r.Counts count n := by
  constructor
  · rw [length_storeys h]
    omega
  · intro storey hmem
    have := le_high_of_mem_storeys h hmem
    omega

/-! ### The bounds and clips of a RELATIVE step (R28 to R30) -/

namespace StepRecord

/-- The raw low storey (R28). -/
def rawLow (origin : Nat) (e : StepRecord) : Int := origin + e.offset

/-- The raw high storey (R28). -/
def rawHigh (origin : Nat) (e : StepRecord) : Int := origin + e.offset + e.length - 1

/-- The top clip of a raw range that reaches into the building (R28). -/
def topClip (count origin : Nat) (e : StepRecord) : Int := max (e.rawHigh origin - (count - 1)) 0

/-- The bottom clip of a raw range that reaches into the building (R28). -/
def bottomClip (origin : Nat) (e : StepRecord) : Int := max (-e.rawLow origin) 0

/-- The clamped low storey (R28). -/
def clampedLow (origin : Nat) (e : StepRecord) : Int := max (e.rawLow origin) 0

/-- The clamped high storey (R28). -/
def clampedHigh (count origin : Nat) (e : StepRecord) : Int := min (e.rawHigh origin) (count - 1)

/-- The low storey that carry gives, before the second clamp (R30). -/
def carriedLow (count origin : Nat) (e : StepRecord) : Int := e.clampedLow origin - e.topClip count origin

/-- The high storey that carry gives, before the second clamp (R30). -/
def carriedHigh (count origin : Nat) (e : StepRecord) : Int := e.clampedHigh count origin + e.bottomClip origin

/-- The storeys lost at the second clamp (R30). -/
def lost (count origin : Nat) (e : StepRecord) : Int :=
  max (-e.carriedLow count origin) 0 + max (e.carriedHigh count origin - (count - 1)) 0

variable {count origin : Nat} {e : StepRecord}

theorem topClip_nonneg : 0 ≤ e.topClip count origin := Int.le_max_right _ _

theorem bottomClip_nonneg : 0 ≤ e.bottomClip origin := Int.le_max_right _ _

theorem lost_nonneg : 0 ≤ e.lost count origin := Int.add_nonneg (Int.le_max_right _ _) (Int.le_max_right _ _)

theorem clampedLow_nonneg : 0 ≤ e.clampedLow origin := Int.le_max_right _ _

/-- A storey clamped at the top of the building is in the building or below it. -/
theorem min_top_lt_count (high : Int) : min high (count - 1) < count :=
  Int.lt_of_le_of_lt (Int.min_le_right _ _) (Int.sub_lt_self _ Int.one_pos)

theorem clampedHigh_lt_count : e.clampedHigh count origin < count :=
  min_top_lt_count _

/-- A raw range that is not empty is clamped to nothing just where it lies outside the building. -/
theorem clampedHigh_lt_clampedLow_iff (hlen : 1 ≤ e.length) :
    e.clampedHigh count origin < e.clampedLow origin ↔
      e.rawHigh origin < 0 ∨ (count : Int) ≤ e.rawLow origin ∨ count = 0 := by
  have hraw : e.rawLow origin ≤ e.rawHigh origin := by unfold rawLow rawHigh; omega
  unfold clampedHigh clampedLow
  omega

/-- What the clamp takes from the raw range is what is clipped at the two ends (R28). -/
theorem clamped_add_clips (origin : Nat) (e : StepRecord) :
    e.clampedHigh count origin - e.clampedLow origin + 1 + (e.topClip count origin + e.bottomClip origin) = e.length := by
  unfold clampedHigh clampedLow topClip bottomClip rawHigh rawLow
  omega

/-- What the second clamp takes from the carried range is what is lost (R30). -/
theorem carried_add_lost (origin : Nat) (e : StepRecord) :
    min (e.carriedHigh count origin) (count - 1) - max (e.carriedLow count origin) 0 + 1 + e.lost count origin =
      e.length := by
  have hclamp := e.clamped_add_clips (count := count) origin
  unfold lost carriedHigh carriedLow
  omega

/-- The twice-clamped range holds the clamped range, so it is not empty either (R30). -/
theorem carriedLow_le_carriedHigh (h : e.clampedLow origin ≤ e.clampedHigh count origin) :
    max (e.carriedLow count origin) 0 ≤ min (e.carriedHigh count origin) (count - 1) := by
  have hlow : 0 ≤ e.clampedLow origin := clampedLow_nonneg
  have hhigh : e.clampedHigh count origin < count := clampedHigh_lt_count
  have htop : 0 ≤ e.topClip count origin := topClip_nonneg
  have hbottom : 0 ≤ e.bottomClip origin := bottomClip_nonneg
  unfold carriedLow carriedHigh
  omega

end StepRecord

/-! ### The range of a step, case by case (R27 to R30) -/

variable {count origin : Nat} {e : StepRecord}

theorem stepRange_all (h : e.scope = .all) :
    stepRange count origin e =
      { range := if count = 0 then none else some (0, count - 1), clipped := 0, unplaced := 0 } := by
  rw [stepRange, h, allRange]

theorem stepRange_outside (h : e.scope = .relative) (hout : e.clampedHigh count origin < e.clampedLow origin) :
    stepRange count origin e = { range := none, clipped := e.length, unplaced := e.length } := by
  rw [stepRange, h]
  exact if_pos hout

theorem stepRange_plain (h : e.scope = .relative) (hin : e.clampedLow origin ≤ e.clampedHigh count origin)
    (hcarry : e.carry = false) :
    stepRange count origin e =
      { range := some ((e.clampedLow origin).toNat, (e.clampedHigh count origin).toNat)
        clipped := (e.topClip count origin + e.bottomClip origin).toNat
        unplaced := (e.topClip count origin + e.bottomClip origin).toNat } := by
  rw [stepRange, h, hcarry]
  exact if_neg (Int.not_lt.mpr hin)

theorem stepRange_carry (h : e.scope = .relative) (hin : e.clampedLow origin ≤ e.clampedHigh count origin)
    (hcarry : e.carry = true) :
    stepRange count origin e =
      { range := some ((max (e.carriedLow count origin) 0).toNat, (min (e.carriedHigh count origin) (count - 1)).toNat)
        clipped := (e.topClip count origin + e.bottomClip origin).toNat
        unplaced := (e.lost count origin).toNat } := by
  rw [stepRange, h, hcarry]
  exact if_neg (Int.not_lt.mpr hin)

theorem clipped_stepRange (h : e.scope = .relative) (hin : e.clampedLow origin ≤ e.clampedHigh count origin) :
    ((stepRange count origin e).clipped : Int) = e.topClip count origin + e.bottomClip origin := by
  have hclips : 0 ≤ e.topClip count origin + e.bottomClip origin :=
    Int.add_nonneg StepRecord.topClip_nonneg StepRecord.bottomClip_nonneg
  cases hcarry : e.carry with
  | false => rw [stepRange_plain h hin hcarry, Int.toNat_of_nonneg hclips]
  | true => rw [stepRange_carry h hin hcarry, Int.toNat_of_nonneg hclips]

theorem unplaced_stepRange_carry (h : e.scope = .relative) (hin : e.clampedLow origin ≤ e.clampedHigh count origin)
    (hcarry : e.carry = true) : ((stepRange count origin e).unplaced : Int) = e.lost count origin := by
  rw [stepRange_carry h hin hcarry, Int.toNat_of_nonneg StepRecord.lost_nonneg]

theorem clipped_stepRange_le (h : e.scope = .relative) : (stepRange count origin e).clipped ≤ e.length := by
  rcases Int.lt_or_le (e.clampedHigh count origin) (e.clampedLow origin) with hout | hin
  · exact Nat.le_of_eq (congrArg StepRange.clipped (stepRange_outside h hout))
  · have hclipped := clipped_stepRange h hin
    have hclamp := e.clamped_add_clips (count := count) origin
    omega

/-- Outside the building nothing is reached; inside it, what either clamp takes away is what the step leaves unplaced. -/
theorem counts_stepRange (h : e.scope = .relative) : (stepRange count origin e).Counts count e.length := by
  rcases Int.lt_or_le (e.clampedHigh count origin) (e.clampedLow origin) with hout | hin
  · rw [stepRange_outside h hout]
    exact StepRange.counts_of_none rfl
  cases hcarry : e.carry with
  | false =>
    have hrange := stepRange_plain h hin hcarry
    have hunplaced : (stepRange count origin e).unplaced = (stepRange count origin e).clipped := by rw [hrange]
    refine StepRange.counts_of_some (congrArg StepRange.range hrange) StepRecord.clampedLow_nonneg hin
      StepRecord.clampedHigh_lt_count ?_
    rw [hunplaced, clipped_stepRange h hin, e.clamped_add_clips origin]
  | true =>
    refine StepRange.counts_of_some (congrArg StepRange.range (stepRange_carry h hin hcarry)) (Int.le_max_right _ _)
      (StepRecord.carriedLow_le_carriedHigh hin) (StepRecord.min_top_lt_count _) ?_
    rw [unplaced_stepRange_carry h hin hcarry, e.carried_add_lost origin]

/-- Settles O36: the cases of the range one by one, and the count of storeys from what the two clamps take away. -/
theorem stepRangesCountStoreys : Obligations.StepRangesCountStoreys := by
  refine ⟨fun count origin e h => stepRange_all h, fun count origin e h hlen => ?_⟩
  refine ⟨StepRecord.clampedHigh_lt_clampedLow_iff hlen, stepRange_outside h, fun hin => ?inside,
    clipped_stepRange_le h, counts_stepRange h⟩
  case inside =>
    refine ⟨clipped_stepRange h hin, fun hcarry => ?plain, fun hcarry => ?carry⟩
    case plain => exact stepRange_plain h hin hcarry ▸ ⟨rfl, rfl⟩
    case carry =>
      exact ⟨congrArg StepRange.range (stepRange_carry h hin hcarry), unplaced_stepRange_carry h hin hcarry⟩

end Sys2Proof.Machine
end

section
/-! SUPPORT. The use of entries and the work of the Zone Arbiter leave the Supervision Sequencer's own fields as they were: what
they have for it they send (R101, R103). Then the classification and the recording of results (R139 to R141). -/

namespace Sys2Proof.Machine

/-! ### The Sequencer beside the use of entries (R6, R7) -/

/-- A walk whose every step leaves the Sequencer as it was leaves it so. -/
theorem sequencer_foldl {α : Type} {f : State → α → State} (h : ∀ t a, (f t a).sequencer = t.sequencer) (l : List α)
    (s : State) : (l.foldl f s).sequencer = s.sequencer := by
  induction l generalizing s with
  | nil => rfl
  | cons a l ih => exact (ih (f s a)).trans (h s a)

@[simp] theorem addFault_sequencer (f : FaultId) (s : State) : (addFault f s).sequencer = s.sequencer := rfl

@[simp] theorem removeFault_sequencer (f : FaultId) (s : State) : (removeFault f s).sequencer = s.sequencer := rfl

@[simp] theorem useEntry_sequencer (r : EntryRef) (s : State) : (useEntry r s).1.sequencer = s.sequencer := by
  unfold useEntry
  split
  · rfl
  · split <;> rfl

@[simp] theorem readTiming_sequencer (f : Header → Nat) (s : State) : (readTiming f s).1.sequencer = s.sequencer := by
  rw [readTiming_value]
  exact useEntry_sequencer headerRef s

@[simp] theorem zoneDisabledCheck_sequencer (old z : Nat) (s : State) :
    (zoneDisabledCheck old z s).sequencer = s.sequencer := by
  unfold zoneDisabledCheck
  split
  · rfl
  · split <;> rfl

@[simp] theorem zoneMarked_sequencer (z : Nat) (s : State) : (zoneMarked z s).sequencer = s.sequencer :=
  zoneDisabledCheck_sequencer _ z _

@[simp] theorem touchZone_sequencer (z : Nat) (s : State) : (touchZone z s).1.sequencer = s.sequencer := by
  have used := useEntry_sequencer (zoneRef z) s
  unfold touchZone
  split
  · rename_i t ht
    rwa [ht] at used
  · rename_i t ht
    rw [ht] at used
    split
    · exact used
    · exact (zoneMarked_sequencer z t).trans used

@[simp] theorem touchZones_sequencer (zs : List Nat) (s : State) : (touchZones zs s).1.sequencer = s.sequencer := by
  induction zs generalizing s with
  | nil => rfl
  | cons z zs ih => exact (ih _).trans (touchZone_sequencer z s)

/-! ### The Sequencer beside holder choices and the confirm exchange (R88 to R101) -/

@[simp] theorem giveHolder_sequencer (z : Nat) (h : Holder) (level : Nat) (s : State) :
    (giveHolder z h level s).sequencer = s.sequencer := by
  unfold giveHolder
  split
  · split <;> rfl
  · rfl

@[simp] theorem decideHolder_sequencer (z : Nat) (s : State) : (decideHolder z s).sequencer = s.sequencer := by
  unfold decideHolder
  dsimp only
  split
  · split
    · exact giveHolder_sequencer z _ _ _
    · exact giveHolder_sequencer z _ _ s
  · exact giveHolder_sequencer z _ _ s

@[simp] theorem chooseHolder_sequencer (z : Nat) (s : State) : (chooseHolder z s).sequencer = s.sequencer := by
  unfold chooseHolder
  rw [decideHolder_sequencer]
  split
  · exact touchZone_sequencer z s
  · rfl

@[simp] theorem chooseHolders_sequencer (zs : List Nat) (s : State) : (chooseHolders zs s).sequencer = s.sequencer :=
  sequencer_foldl (fun t z => chooseHolder_sequencer z t) zs s

@[simp] theorem enterConfirming_sequencer (k : Nat) (s : State) : (enterConfirming k s).sequencer = s.sequencer := by
  unfold enterConfirming
  split
  · rfl
  · exact readTiming_sequencer Header.confirmTimeout s

@[simp] theorem confirmWinners_sequencer (ks : List Nat) (s : State) : (confirmWinners ks s).sequencer = s.sequencer := by
  refine sequencer_foldl (fun t k => ?_) ks s
  split
  · exact enterConfirming_sequencer k t
  · rfl

@[simp] theorem wouldWinTest_sequencer (ks : List Nat) (s : State) : (wouldWinTest ks s).sequencer = s.sequencer := by
  have read := touchZones_sequencer (testReads s ks) s
  unfold wouldWinTest
  split
  · rename_i t ht
    rw [ht] at read
    exact (confirmWinners_sequencer ks t).trans read
  · rename_i t fresh _ ht
    rw [ht] at read
    simpa using read

@[simp] theorem testPending_sequencer (s : State) : (testPending s).sequencer = s.sequencer :=
  wouldWinTest_sequencer _ s

@[simp] theorem choiceEvent_sequencer (zs : List Nat) (s : State) : (choiceEvent zs s).sequencer = s.sequencer := by
  unfold choiceEvent
  split
  · rfl
  · exact (testPending_sequencer _).trans (chooseHolders_sequencer zs s)

/-- A use of a zone's record, with all that its marking brings (R7), leaves the Sequencer as it was. -/
@[simp] theorem useZone_sequencer (z : Nat) (s : State) : (useZone z s).1.sequencer = s.sequencer := by
  have touched := touchZone_sequencer z s
  unfold useZone
  split
  · rename_i t ht
    rwa [ht] at touched
  · rename_i t ht
    rw [ht] at touched
    split
    · exact touched
    · exact (choiceEvent_sequencer [z] t).trans touched

/-! ### A record that is not handed over (R6) -/

theorem touchZone_unsound {z : Nat} {s : State} (h : ¬Sound s (zoneRef z)) : (touchZone z s).2 = false := by
  have refused := useEntry_unsound h
  unfold touchZone
  split
  · rename_i t ht
    rw [ht] at refused
    exact refused
  · split <;> rfl

theorem useZone_unsound {z : Nat} {s : State} (h : ¬Sound s (zoneRef z)) : (useZone z s).2 = false := by
  have refused := touchZone_unsound h
  unfold useZone
  split
  · rename_i t ht
    rw [ht] at refused
    exact refused
  · split <;> rfl

/-! ### Results recorded and line faults asked for (R140, R141) -/

/-- Whatever the result, it becomes the last result (R140). -/
@[simp] theorem countResult_last (r : LastResult) (e : ZoneResult) : (countResult r e).last = r := by
  cases r <;> rfl

@[simp] theorem setResult_sequencer (z : Nat) (r : LastResult) (s : State) :
    (setResult z r s).sequencer =
      { s.sequencer with zones := s.sequencer.zones.set z (countResult r (s.sequencer.zones.get z)) } := rfl

/-- The line faults are asked of the Fault Unit; the Sequencer's own fields stay. -/
@[simp] theorem askLineFaults_sequencer (z : Nat) (r : LastResult) (s : State) :
    (askLineFaults z r s).sequencer = s.sequencer := by
  unfold askLineFaults
  split
  · split <;> rfl
  · split <;> rfl
  · rfl

/-- With a sound record the report is classified against its window, recorded, and its line faults asked for. -/
theorem recordResult_sound {z : Nat} {s : State} (h : Sound s (zoneRef z)) (report : Option Report) :
    recordResult z report s =
      let e := s.tables.fields.zones.get z
      let r := classify e.low e.high report
      askLineFaults z r (setResult z r s) := by
  rw [recordResult, useZone_sound h]

/-- With a record marked, or marked by the reading, the reading is all that is done. -/
theorem recordResult_unsound {z : Nat} {s : State} (h : ¬Sound s (zoneRef z)) (report : Option Report) :
    recordResult z report s = (useZone z s).1 := by
  have refused := useZone_unsound h
  unfold recordResult
  split
  · rename_i t ht
    rw [ht]
  · rename_i t ht
    rw [ht] at refused
    cases refused

/-- Settles O53: the reading of the record decides between a result recorded and none, and neither the reading nor the requests
for line faults touch the Sequencer. -/
theorem reportsAreClassified : Obligations.ReportsAreClassified := by
  refine ⟨fun _ _ => rfl, fun _ _ _ => rfl, fun z report s =>
    ⟨fun hsound hz => ?recorded, fun hunsound => ?notRecorded, rfl, rfl, rfl, fun _ => ⟨rfl, fun _ => rfl⟩⟩⟩
  case recorded =>
    intro e result
    have hrecord : recordResult z report s = askLineFaults z result (setResult z result s) :=
      recordResult_sound hsound report
    have hsequencer : (recordResult z report s).sequencer = (setResult z result s).sequencer := by
      rw [hrecord, askLineFaults_sequencer]
    refine ⟨hsequencer, ?_, hrecord⟩
    rw [hsequencer, setResult_sequencer, Tab.get_set_self _ _ hz, countResult_last]
  case notRecorded =>
    have hrecord := recordResult_unsound hunsound report
    refine ⟨useZone_unsound hunsound, hrecord, ?_⟩
    rw [hrecord, useZone_sequencer]

end Sys2Proof.Machine
end

section
/-! SUPPORT. The walk of FIND: where its first hit is, and that it reads the Supervision Sequencer alone (R160). -/

namespace Sys2Proof.Machine

/-! ### The walk over the zones of the span -/

/-- The last result of zone `z` lies in the set or, for NON-MEMBER, outside it (R160). -/
def FindHit (s : State) (set : BitVec 8) (member : Bool) (z : Nat) : Prop :=
  set.getLsbD (resultCode (s.sequencer.zones.get z).last) = member

variable {s t : State} {set : BitVec 8} {member : Bool}

theorem findFrom_hit {z : Nat} (n : Nat) (h : FindHit s set member z) :
    findFrom s set member (n + 1) z = (z, n + 1) := if_pos h

theorem findFrom_miss {z : Nat} (n : Nat) (h : ¬FindHit s set member z) :
    findFrom s set member (n + 1) z = findFrom s set member n (z + 1) := if_neg h

/-- Every zone before the first hit is passed over, and the zones left are counted from the hit to the end of the span. -/
theorem findFrom_first {first n z : Nat} (hle : first ≤ z) (hlt : z < first + n) (hhit : FindHit s set member z)
    (hbefore : ∀ y, first ≤ y → y < z → ¬FindHit s set member y) :
    findFrom s set member n first = (z, first + n - z) := by
  induction n generalizing first with
  | zero => omega
  | succ n ih =>
    rcases Nat.eq_or_lt_of_le hle with rfl | hpast
    · rw [findFrom_hit n hhit, Nat.add_sub_cancel_left]
    · have hrest : findFrom s set member n (first + 1) = (z, first + 1 + n - z) :=
        ih hpast (by omega) fun y hy => hbefore y (by omega)
      rw [findFrom_miss n (hbefore first (Nat.le_refl first) hpast), hrest]
      congr 2
      omega

/-- Without a hit the walk ends just past the span. -/
theorem findFrom_none {first n : Nat} (hnone : ∀ z, first ≤ z → z < first + n → ¬FindHit s set member z) :
    findFrom s set member n first = (first + n, 0) := by
  induction n generalizing first with
  | zero => rfl
  | succ n ih =>
    have hrest : findFrom s set member n (first + 1) = (first + 1 + n, 0) :=
      ih fun z hz hlt => hnone z (by omega) (by omega)
    rw [findFrom_miss n (hnone first (Nat.le_refl first) (by omega)), hrest]
    congr 1
    omega

theorem findFrom_congr (h : t.sequencer = s.sequencer) (n z : Nat) :
    findFrom t set member n z = findFrom s set member n z := by
  induction n generalizing z with
  | zero => rfl
  | succ n ih => simp only [findFrom, h, ih]

/-! ### FIND at the Supervision Sequencer -/

variable {first count sense : Nat}

theorem find_outOfRange (h : 128 < first + count ∨ 1 < sense) :
    find first count sense set s = (.badValue, []) := if_pos h

theorem find_inRange (hspan : first + count ≤ 128) (hsense : sense ≤ 1) {z n : Nat}
    (h : findFrom s set (decide (sense = 0)) count first = (z, n)) :
    find first count sense set s = (.ok, [byte z, byte n]) := by
  rw [find, if_neg (by omega), h]

theorem find_congr (h : t.sequencer = s.sequencer) : find first count sense set t = find first count sense set s := by
  simp only [find, findFrom_congr h]

/-! ### FIND as a request -/

variable {q : Sender}

theorem leaves_find (h : findRequest q first count sense set s = t) : Leaves (.find q first count sense set) s t :=
  congrArg settled h

/-- The authority lookup and the place reserved leave the Sequencer as it was, so that the answer is that of the state in which
the request came (R152, R155). -/
theorem findRequest_heard (h : Heard q .monitor s) {status : Status} {data : List Byte}
    (hfind : find first count sense set s = (status, data)) :
    findRequest q first count sense set s = answered q (.response 6 status data) (lookedUp q s) := by
  obtain ⟨-, -, -, hsequencer, -⟩ := lookedUp_beside q s
  have hread : find first count sense set (reservePlace q (lookedUp q s)) = (status, data) :=
    (find_congr (t := reservePlace q (lookedUp q s)) hsequencer).trans hfind
  have hanswer := request_reading (type := 6) (data := []) (f := find first count sense set) h.toEntitled (.inl h.bound)
  rwa [hread] at hanswer

/-- Settles O28: a refusal is the common one, and a request heard is answered from the walk over the span, whose end the first
hit decides. -/
theorem findAnswersTheSpan : Obligations.FindAnswersTheSpan := by
  refine ⟨fun q first count sense results s hplace hhand hdenied => leaves_find (request_denied hplace hhand hdenied),
    fun q first count sense results s hheard => ⟨fun hrange => ?badValue, fun hspan hsense => ⟨?hit, ?none⟩⟩⟩
  case badValue => exact leaves_find (findRequest_heard hheard (find_outOfRange hrange))
  case hit =>
    intro z hle hlt hhit hbefore
    exact leaves_find (findRequest_heard hheard (find_inRange hspan hsense (findFrom_first hle hlt hhit hbefore)))
  case none =>
    intro hnone
    exact leaves_find (findRequest_heard hheard (find_inRange hspan hsense (findFrom_none hnone)))

end Sys2Proof.Machine
end

section
/-! SUPPORT. The Fault Unit, request by request: a notification handed over, a fault added, a fault removed (R170 to R174). -/

namespace Sys2Proof.Machine

namespace FaultUnit

variable {u : FaultUnit} {f : FaultId} {seconds : Nat} {n : Notice}

/-! ### A notification handed over (R173, R174) -/

theorem take_of_disabled (h : u.enabled = false) : u.take n = u := if_pos h

theorem take_of_room (h : u.enabled = true) (hroom : u.queue.length < 32) : u.take n = u.enter n := by
  rw [take, h, if_neg Bool.noConfusion, if_pos hroom]

theorem take_of_full (h : u.enabled = true) (hfull : 32 ≤ u.queue.length) : u.take n = { u with overrun := true } := by
  rw [take, h, if_neg Bool.noConfusion, if_neg (Nat.not_lt.mpr hfull)]

/-! ### A fault added and removed (R170 to R172) -/

theorem listed_iff : u.listed f = true ↔ ∃ e ∈ u.list, e.fault = f := by
  simp [listed]

theorem add_of_listed (h : ∃ e ∈ u.list, e.fault = f) : u.add f seconds = u := if_pos (listed_iff.mpr h)

theorem add_of_room (h : ¬∃ e ∈ u.list, e.fault = f) (hroom : u.list.length < 64) :
    u.add f seconds =
      FaultUnit.take (.faultAdded f seconds) { u with list := u.list ++ [{ fault := f, stamp := seconds }] } := by
  rw [add, if_neg (mt listed_iff.mp h), if_pos hroom]

theorem add_of_full (h : ¬∃ e ∈ u.list, e.fault = f) (hfull : 64 ≤ u.list.length) :
    u.add f seconds = { u with overflow := true } := by
  rw [add, if_neg (mt listed_iff.mp h), if_neg (Nat.not_lt.mpr hfull)]

theorem withList_eq (l : List FaultEntry) (u : FaultUnit) :
    u.withList l = { u with list := l, overflow := if l = [] then false else u.overflow } := by
  cases l with
  | nil => simp [withList]
  | cons e l => simp [withList]

theorem remove_of_listed (h : ∃ e ∈ u.list, e.fault = f) :
    u.remove f seconds =
      FaultUnit.take (.faultRemoved f seconds) (u.withList (u.list.filter fun e => decide (e.fault ≠ f))) :=
  if_pos (listed_iff.mpr h)

theorem remove_of_not_listed (h : ¬∃ e ∈ u.list, e.fault = f) : u.remove f seconds = u := if_neg (mt listed_iff.mp h)

end FaultUnit

/-! ### The commands: each changes the Fault Unit alone -/

variable {s : State} {u : FaultUnit} {f : FaultId} {n : Notice}

theorem exec_addFault (h : s.faultUnit.add f s.timer.seconds = u) :
    exec (.addFault f) s = .next { s with faultUnit := u } := h ▸ rfl

theorem exec_removeFault (h : s.faultUnit.remove f s.timer.seconds = u) :
    exec (.removeFault f) s = .next { s with faultUnit := u } := h ▸ rfl

theorem exec_queueNotification (h : s.faultUnit.take n = u) :
    exec (.queueNotification n) s = .next { s with faultUnit := u } := h ▸ rfl

/-- Settles O29: what the Fault Unit does with a request depends on whether the fault is listed and whether there is room. -/
theorem faultUnitTakesRequests : Obligations.FaultUnitTakesRequests := by
  refine ⟨fun f s => ⟨?addListed, ?addRoom, ?addFull⟩, fun f s => ⟨?removeListed, ?removeNotListed⟩,
    fun n s => ⟨exec_queueNotification rfl, ?disabled, ?queueRoom, ?queueFull⟩⟩
  case addListed => exact fun hlisted => exec_addFault (FaultUnit.add_of_listed hlisted)
  case addRoom => exact fun hlisted hroom => exec_addFault (FaultUnit.add_of_room hlisted hroom)
  case addFull => exact fun hlisted hfull => exec_addFault (FaultUnit.add_of_full hlisted hfull)
  case removeListed =>
    intro hlisted
    have hremove := FaultUnit.remove_of_listed (seconds := s.timer.seconds) hlisted
    rw [FaultUnit.withList_eq] at hremove
    exact exec_removeFault hremove
  case removeNotListed => exact fun hlisted => exec_removeFault (FaultUnit.remove_of_not_listed hlisted)
  case disabled => exact fun hoff => exec_queueNotification (FaultUnit.take_of_disabled hoff)
  case queueRoom => exact fun hon hroom => exec_queueNotification (FaultUnit.take_of_room hon hroom)
  case queueFull => exact fun hon hfull => exec_queueNotification (FaultUnit.take_of_full hon hfull)

end Sys2Proof.Machine
end

section
/-! SUPPORT. Facts of lists that the core library does not state. -/

namespace Sys2Proof.Machine

/-- A filter that lets more through. -/
theorem filter_sublist_filter {α : Type} {p q : α → Bool} (l : List α) (h : ∀ a, p a = true → q a = true) :
    (l.filter p).Sublist (l.filter q) := by
  have heq : (l.filter q).filter p = l.filter p := by
    rw [List.filter_filter]
    exact List.filter_congr fun a _ => by
      rcases hp : p a with _ | _
      · rfl
      · rw [h a hp]; rfl
  exact heq ▸ List.filter_sublist

/-- A list without repetition is no longer than a list it lies in. -/
theorem length_le_of_subset {α : Type} {l m : List α} (hnodup : l.Nodup) (hsub : l ⊆ m) : l.length ≤ m.length := by
  induction l generalizing m with
  | nil => exact Nat.zero_le _
  | cons a l ih =>
    obtain ⟨hnot, hrest⟩ := List.nodup_cons.mp hnodup
    obtain ⟨before, after, rfl⟩ := List.append_of_mem (hsub List.mem_cons_self)
    have hle : l.length ≤ (before ++ after).length := ih hrest fun b hb => by
      rcases List.mem_append.mp (hsub (List.mem_cons_of_mem a hb)) with hb' | hb'
      · exact List.mem_append_left _ hb'
      · rcases List.mem_cons.mp hb' with rfl | hb'
        · exact absurd hb hnot
        · exact List.mem_append_right _ hb'
    simp only [List.length_append, List.length_cons] at hle ⊢
    omega

theorem nodup_map {α β : Type} {f : α → β} {l : List α} (hf : ∀ a b, f a = f b → a = b) (h : l.Nodup) : (l.map f).Nodup :=
  List.Pairwise.map f (fun a b hne heq => hne (hf a b heq)) h

/-- Two members of a list that a map sends to the same value are the same, where the values do not repeat. -/
theorem eq_of_nodup_map {α β : Type} {f : α → β} {l : List α} (h : (l.map f).Nodup) {a b : α} (ha : a ∈ l) (hb : b ∈ l)
    (heq : f a = f b) : a = b := by
  induction l with
  | nil => cases ha
  | cons c l ih =>
    rw [List.map_cons, List.nodup_cons] at h
    obtain ⟨hnot, hrest⟩ := h
    rcases List.mem_cons.mp ha with rfl | hal
    · rcases List.mem_cons.mp hb with rfl | hbl
      · rfl
      · exact absurd (heq ▸ List.mem_map_of_mem hbl) hnot
    · rcases List.mem_cons.mp hb with rfl | hbl
      · exact absurd (heq ▸ List.mem_map_of_mem hal) hnot
      · exact ih hrest hal hbl

theorem filterMap_eq_of_mem {α β : Type} {f g : α → Option β} {l : List α} (h : ∀ a ∈ l, f a = g a) :
    l.filterMap f = l.filterMap g := by
  induction l with
  | nil => rfl
  | cons a l ih =>
    rw [List.filterMap_cons, List.filterMap_cons, h a List.mem_cons_self, ih fun b hb => h b (List.mem_cons_of_mem a hb)]

theorem takeWhile_eq_self {α : Type} {p : α → Bool} {l : List α} (h : ∀ a ∈ l, p a = true) : l.takeWhile p = l := by
  have happ := List.takeWhile_append_of_pos (l₂ := []) h
  simpa using happ

/-- Induction along a list from its end. -/
theorem append_singleton_induction {α : Type} {motive : List α → Prop} (l : List α) (nil : motive [])
    (append_singleton : ∀ l a, motive l → motive (l ++ [a])) : motive l := by
  have hreverse : ∀ m : List α, motive m.reverse := fun m => by
    induction m with
    | nil => exact nil
    | cons a m ih => exact List.reverse_cons ▸ append_singleton _ a ih
  exact List.reverse_reverse l ▸ hreverse l.reverse

theorem ite_congr_iff {α : Type} {P Q : Prop} [Decidable P] [Decidable Q] {a b c d : α} (h : P ↔ Q) (hthen : a = c)
    (helse : b = d) : (if P then a else b) = if Q then c else d := by
  by_cases hq : Q
  · rw [if_pos hq, if_pos (h.mpr hq), hthen]
  · rw [if_neg hq, if_neg fun hp => hq (h.mp hp), helse]

theorem congrArg_two {α β γ : Type} (f : α → β → γ) {a c : α} {b d : β} (hfirst : a = c) (hsecond : b = d) : f a b = f c d :=
  congr (congrArg f hfirst) hsecond

end Sys2Proof.Machine
end

section
/-! SUPPORT. The queue of commands, the reset state and its laws, the use of an entry, the counting of results, and the ends of
an edit that nobody asked for. -/

namespace Sys2Proof.Machine

/-! ### The queue of commands and the reset -/

/-- Settles O1: a step is the case split on the queue. -/
theorem stepTakesTheFrontCommand : Obligations.StepTakesTheFrontCommand := by
  refine ⟨fun c rest s => rfl, fun s h => ?_⟩
  unfold step
  rw [h]

/-- A fresh Table Store holds every entry unmarked and passing its check (R1, R3). -/
theorem passes_of_fresh {s : State} {image : Image} (h : s.tables = .fresh image) (r : EntryRef) :
    s.passes r = true ∧ s.marked r = false := by
  simp [State.passes, State.marked, h, TableStore.fresh, flipOf]

/-- Settles O3: the reset state's fields are the power-on values, the tables read by their constant contents. -/
theorem powerOnResetValues : Obligations.PowerOnResetValues := by
  intro s
  refine ⟨{ State.reset with pending := s.pending }, rfl, ?_⟩
  have hchecks : ∀ r, ({ State.reset with pending := s.pending } : State).passes r = true ∧
      ({ State.reset with pending := s.pending } : State).marked r = false := passes_of_fresh rfl
  have hget {α : Type} [Inhabited α] {n : Nat} (a : α) : ∀ i < n, (Tab.const a : Tab α n).get i = a :=
    fun i hi => Tab.get_const a hi
  refine ⟨rfl, rfl, rfl, rfl, rfl, rfl, rfl, rfl, rfl, rfl, rfl, rfl, rfl, rfl, rfl, rfl, rfl, hget _, rfl, rfl, rfl, rfl, rfl,
    rfl, rfl, rfl, rfl, hchecks, rfl, rfl, rfl, rfl, fun z hz => ⟨hget _ z hz, hget _ z hz⟩, hget _, rfl, rfl, rfl, rfl,
    fun z hz => ⟨hget _ z hz, hget _ z hz, hget _ z hz⟩, fun c hc => ⟨hget _ c hc, hget _ c hc, hget _ c hc⟩,
    fun z hz => ⟨hget _ z hz, hget _ z hz⟩, rfl, rfl, rfl, rfl, rfl, rfl, hget _, rfl, rfl, rfl, rfl, rfl, rfl⟩

/-! ### The laws at reset -/

/-- A table that holds `a` everywhere reads as `a`, beyond its end too where `a` is the default. -/
theorem get_const_default {α : Type} [Inhabited α] {n : Nat} (i : Nat) :
    (Tab.const default : Tab α n).get i = default := by
  by_cases h : i < n
  · exact Tab.get_const _ h
  · exact Tab.get_beyond _ (Nat.not_lt.mp h)

theorem bestLive_of_no_candidate {s : State} {z : Nat} {l : List Nat} (h : ∀ k ∈ l, candidate s z k = none) :
    bestLive s z l = none := by
  induction l with
  | nil => rfl
  | cons k l ih =>
    rw [bestLive, h k (by simp), ih fun j hj => h j (by simp [hj])]

theorem winner_of_no_candidate {s : State} {z : Nat} (hplan : planCandidate s z = none)
    (hlive : ∀ k ∈ List.range 16, candidate s z k = none) : winner s z = (.none, 0) := by
  rw [winner, hplan, bestLive_of_no_candidate hlive]

theorem reset_claims (k : Nat) : State.reset.arbiter.claims.get k = none := get_const_default k

theorem reset_winner (z : Nat) : winner State.reset z = (.none, 0) := by
  apply winner_of_no_candidate
  · have : State.reset.arbiter.planClaims.get z = none := get_const_default z
    rw [planCandidate, this]
  · intro k _
    rw [candidate, reset_claims]

theorem reset_holders (z : Nat) : State.reset.arbiter.holders.get z = .none := get_const_default z

theorem reset_records (z : Nat) : State.reset.crosspoint.records.get z = .none := get_const_default z

theorem reset_demandLaw : DemandLaw State.reset.engine where
  formed _ hz := Tab.get_const _ hz
  allClear _ hz h := absurd (Tab.get_const 0 hz) h

theorem reset_faultUnitLaw : FaultUnitLaw State.reset.faultUnit where
  listSize := Nat.zero_le _
  noTwoAlike := .nil
  overflow := nofun
  queueSize := Nat.zero_le _
  overrun := nofun
  disabled _ := rfl

theorem reset_holderLaw (z : Nat) : HolderLaw State.reset z where
  reserved := nofun
  winner _ := by rw [reset_winner, reset_holders]

theorem reset_recordLaw (z : Nat) : RecordLaw State.reset z where
  none _ := reset_records z
  plan h := by rw [reset_holders] at h; cases h
  slot k h := by rw [reset_holders] at h; cases h

theorem reset_no_claim {P : Prop} {k : Nat} {c : Claim} (h : State.reset.arbiter.claims.get k = some c) : P := by
  rw [reset_claims] at h
  cases h

theorem reset_stampLaw : StampLaw State.reset.arbiter where
  arrivalCounter := Nat.zero_le _
  onAirCounter := Nat.zero_le _
  arrivals _ _ _ h := reset_no_claim h
  stamps k _ n h := by rw [reset_claims] at h; cases h
  arrivalsDiffer _ _ _ _ _ _ _ h := reset_no_claim h
  stampsDiffer j _ k _ _ n h := by rw [reset_claims] at h; cases h

theorem reset_zoneLaw : ZoneLaw State.reset where
  pointer := by decide
  scrub := by decide
  step h := absurd rfl h
  reserved := nofun

theorem reset_routerLaw : RouterLaw State.reset.router where
  sToZ := Nat.zero_le _
  zToS := Nat.zero_le _
  places := Nat.zero_le _
  confirms := Nat.zero_le _
  oneEach := .nil
  slots := nofun
  cells := nofun
  segments := nofun

theorem reset_incidentLaw : IncidentLaw State.reset.engine where
  size := Nat.zero_le _
  counter := ⟨Nat.le_refl 1, by decide⟩
  ids := nofun
  noIdTwice := .nil
  noOriginTwice := .nil
  dzList := nofun

theorem reset_planClaimLaw : PlanClaimLaw State.reset := by
  intro z hz
  have hplan : State.reset.arbiter.planClaims.get z = none := get_const_default z
  have hdemand : State.reset.engine.demand.get z = .none := get_const_default z
  have hclear : State.reset.engine.allClear.get z = 0 := get_const_default z
  rw [hplan, Engine.planClaim, hdemand, hclear]
  rfl

/-- Settles O4, law by law. -/
theorem lawsHoldAtReset : Obligations.LawsHoldAtReset :=
  ⟨reset_faultUnitLaw, reset_demandLaw, nofun, fun _ _ _ _ _ _ _ h => reset_no_claim h,
    fun z _ => ⟨reset_holderLaw z, reset_recordLaw z⟩, fun _ _ _ h => reset_no_claim h, reset_stampLaw, reset_zoneLaw,
    reset_routerLaw, nofun, fun _ => ⟨rfl, rfl⟩, reset_incidentLaw, reset_planClaimLaw⟩

/-! ### The mail of the Sequencer (log 3) -/

/-- A command that leaves the blocks at `t` with nothing sent answers `t`. -/
theorem exec_of_leaves {c : Instr} {s t : State} (h : Leaves c s t) (hmail : t.mail = []) : exec c s = .next t := by
  rw [h, drain_nil _ hmail]

theorem drain_cons {n : Nat} {m : SequencerMail} {rest : List SequencerMail} {s : State} (h : s.mail = m :: rest) :
    drain (n + 1) s = drain n (takeMail m { s with mail := rest }) := by
  rw [drain, h]

/-- Settles O14 from the recursion of `drain`. -/
theorem sequencerTakesItsMail : Obligations.SequencerTakesItsMail :=
  ⟨fun _ _ _ h hmail => exec_of_leaves h hmail, fun n _ h => drain_nil n h, fun _ _ _ _ h => drain_cons h,
    fun n s => (drain_worked n s).toBeside⟩

/-! ### The use of an entry (R5, R6, R9) -/

theorem useEntry_of_marked {r : EntryRef} {s : State} (h : s.marked r = true) :
    useEntry r s = (addFault (.tableCorrupt r) s, false) := if_pos h

theorem useEntry_of_failing {r : EntryRef} {s : State} (hm : s.marked r = false) (hp : s.passes r = false) :
    useEntry r s = (addFault (.tableCorrupt r) (s.setMark r), false) := by
  simp [useEntry, hm, hp]

/-- Where the check of an entry passes, its stored code is the code over its fields as stored (R5). -/
theorem storedCode_of_passes {r : EntryRef} {s : State} (h : s.passes r = true) :
    s.storedCode r = Config.checkCode (tableNumber r.table) (entryImage (s.tables.fields.entry r)) := by
  obtain ⟨hfields, hflip⟩ : s.tables.fields.entry r = s.tables.coded.entry r ∧ flipOf r s.tables.codeFlips = 0 := by
    simpa [State.passes] using h
  simp [State.storedCode, hfields, hflip]

/-- Settles O15: the three branches of a use, the code of an entry that passes, and the header's timings. -/
theorem useOfAnEntry : Obligations.UseOfAnEntry := by
  intro r s
  refine ⟨useEntry_of_marked, fun hm hp => useEntry_sound ⟨hm, hp⟩, fun hm hp => ?_, storedCode_of_passes,
    fun f => congrArg Prod.snd (readTiming_value f s)⟩
  have hused := useEntry_of_failing hm hp
  refine ⟨hused, fun q => ?_⟩
  rw [hused]
  exact marked_setMark s r q

/-! ### Results counted (R140, R141) -/

theorem countResult_failed_again {k : FailKind} {e : ZoneResult} (hpos : 0 < e.failures) (hkind : e.counted = some k) :
    countResult (.failed k) e =
      { last := .failed k, failures := min (e.failures + 1) 2, counted := some k, normals := 0 } := by
  simp [countResult, hpos, hkind]

theorem countResult_failed_first {k : FailKind} {e : ZoneResult} (h : e.failures = 0 ∨ e.counted ≠ some k) :
    countResult (.failed k) e = { last := .failed k, failures := 1, counted := some k, normals := 0 } := by
  have : ¬(0 < e.failures ∧ e.counted = some k) := by
    rintro ⟨hpos, hkind⟩
    rcases h with h | h
    · omega
    · exact h hkind
  simp [countResult, this]

/-- Settles O54. -/
theorem resultsAreCounted : Obligations.ResultsAreCounted :=
  ⟨fun _ => ⟨rfl, rfl, fun _ => ⟨countResult_failed_again, countResult_failed_first⟩⟩,
    fun _ _ => ⟨fun _ => rfl, fun htwo => if_pos htwo, fun hother => if_neg hother⟩⟩

/-! ### The ends of an edit that nobody asked for (R163, R166) -/

variable {s : State} {e : Edit}

@[simp] theorem EditPhase.isValidating_iff {p : EditPhase} : p.isValidating = true ↔ p ≠ .opened := by
  cases p <;> simp [EditPhase.isValidating]

theorem EditPhase.isValidating_of_opened {p : EditPhase} (h : p = .opened) : p.isValidating = false := by
  rw [h, isValidating]

theorem answerEnded_of_opened (h : e.phase = .opened) (s : State) : answerEnded e s = s := by
  rw [answerEnded, if_neg (by simp [h])]

theorem answerEnded_of_validating (h : e.phase ≠ .opened) (s : State) : answerEnded e s = answerCommit .noEdit [] s := by
  rw [answerEnded, if_pos (by simp [h])]

theorem leaseRunOut_iff : leaseRunOut e = true ↔ e.lease = 0 ∧ e.phase = .opened := by
  simp [leaseRunOut]

theorem breakEdit_none (h : s.tables.edit = none) : breakEdit s = s := by
  rw [breakEdit, h]

theorem breakEdit_some (h : s.tables.edit = some e) :
    breakEdit s = answerEnded e (notify (.editEnded .broken) (s.setEdit none)) := by
  rw [breakEdit, h]

theorem exec_leaseExpiry_some (h : s.tables.edit = some e) :
    exec .leaseExpiry s = .next (if leaseRunOut e then expireEdit s else s) := by
  show execLeaseExpiry s = _
  rw [execLeaseExpiry, h]

theorem exec_leaseExpiry_none (h : s.tables.edit = none) : exec .leaseExpiry s = .next s := by
  show execLeaseExpiry s = _
  rw [execLeaseExpiry, h]

/-- Settles O59: by whether there is an edit, whether its lease has run out and whether its commit is VALIDATING. -/
theorem editsEndUnasked : Obligations.EditsEndUnasked := by
  refine fun s => ⟨fun hkept => ?kept, fun e hedit hlease hphase => ?expired, fun hnone => ?noEdit,
    fun e hedit => ⟨fun hphase => ?opened, fun hphase => ?validating⟩⟩
  case kept =>
    rcases hedit : s.tables.edit with _ | e
    · exact exec_leaseExpiry_none hedit
    · have hlease : ¬leaseRunOut e = true := fun h => (hkept e hedit).elim (· (leaseRunOut_iff.mp h).1)
        (· (leaseRunOut_iff.mp h).2)
      rw [exec_leaseExpiry_some hedit, if_neg hlease]
  case expired =>
    rw [exec_leaseExpiry_some hedit, if_pos (leaseRunOut_iff.mpr ⟨hlease, hphase⟩)]
    rfl
  case noEdit => exact congrArg _ (breakEdit_none hnone)
  case opened => exact congrArg _ ((breakEdit_some hedit).trans (answerEnded_of_opened hphase _))
  case validating => exact congrArg _ ((breakEdit_some hedit).trans (answerEnded_of_validating hphase _))

end Sys2Proof.Machine
end

section
/-! SUPPORT. The choice of R100: the order of the live candidates, the winning live claim as the one that beats or outlasts every
other, and the winner of a zone read from its candidates alone. -/

namespace Sys2Proof.Machine

/-! ### The order of the live candidates (R100) -/

theorem beats_iff {a b : Nat × Nat} :
    beats a b = true ↔ b.1 < a.1 ∨ a.1 = b.1 ∧ if a.1 = 7 then b.2 < a.2 else a.2 < b.2 := by
  unfold beats
  split <;> simp

theorem beats_asymm {a b : Nat × Nat} (h : beats a b = true) : ¬beats b a = true := by
  rw [beats_iff] at *
  split at h <;> split <;> omega

/-- A candidate beaten by one and not by another is beaten by the first of them only where that one beats the other. -/
theorem beats_of_beats_of_not {a b c : Nat × Nat} (hab : beats a b = true) (hcb : ¬beats c b = true) :
    beats a c = true := by
  rw [beats_iff] at *
  split at hab <;> split at hcb <;> split <;> omega

/-- Slot `k` holds the best candidate of the slots listed: none there beats it, and it beats every one in a later slot. -/
structure IsBest (f : Nat → Option (Nat × Nat)) (l : List Nat) (k : Nat) (a : Nat × Nat) : Prop where
  mem : k ∈ l
  candidate : f k = some a
  unbeaten : ∀ j ∈ l, ∀ b, f j = some b → ¬beats b a = true
  later : ∀ j ∈ l, ∀ b, f j = some b → k < j → beats a b = true

theorem IsBest.unique {f : Nat → Option (Nat × Nat)} {l : List Nat} {j k : Nat} {a b : Nat × Nat}
    (hj : IsBest f l j a) (hk : IsBest f l k b) : (j, a) = (k, b) := by
  rcases Nat.lt_trichotomy j k with h | rfl | h
  · exact absurd (hj.later k hk.mem b hk.candidate h) (hk.unbeaten j hj.mem a hj.candidate)
  · rw [Option.some.inj (hj.candidate.symm.trans hk.candidate)]
  · exact absurd (hk.later j hj.mem a hj.candidate h) (hj.unbeaten k hk.mem b hk.candidate)

variable {s t : State} {z : Nat}

theorem bestLive_eq_none {l : List Nat} : bestLive s z l = none ↔ ∀ k ∈ l, candidate s z k = none := by
  refine ⟨fun h => ?_, bestLive_of_no_candidate⟩
  induction l with
  | nil => nofun
  | cons k l ih =>
    rw [bestLive] at h
    rcases hk : candidate s z k with _ | a <;> rcases hl : bestLive s z l with _ | b <;> rw [hk, hl] at h
    · exact List.forall_mem_cons.mpr ⟨hk, ih hl⟩
    · cases h
    · cases h
    · dsimp only at h
      split at h <;> cases h

theorem isBest_of_bestLive {l : List Nat} (hl : l.Pairwise (· < ·)) {k : Nat} {a : Nat × Nat}
    (h : bestLive s z l = some (k, a)) : IsBest (candidate s z) l k a := by
  induction l generalizing k a with
  | nil => cases h
  | cons i l ih =>
    obtain ⟨hi, hsorted⟩ := List.pairwise_cons.mp hl
    rw [bestLive] at h
    rcases hc : candidate s z i with _ | c <;> rcases hb : bestLive s z l with _ | ⟨j, b⟩ <;> rw [hc, hb] at h
    · cases h
    · obtain ⟨mem, found, unbeaten, later⟩ := ih hsorted (hb.trans h)
      have hhead {P : Prop} {x : Nat × Nat} (hx : candidate s z i = some x) : P := by rw [hc] at hx; cases hx
      exact ⟨by simp [mem], found, List.forall_mem_cons.mpr ⟨fun x hx => hhead hx, unbeaten⟩,
        List.forall_mem_cons.mpr ⟨fun x hx => hhead hx, later⟩⟩
    · obtain ⟨rfl, rfl⟩ := Prod.mk.inj (Option.some.inj h)
      have hnone := bestLive_eq_none.mp hb
      have htail {P : Prop} {y : Nat} {x : Nat × Nat} (hy : y ∈ l) (hx : candidate s z y = some x) : P := by
        rw [hnone y hy] at hx; cases hx
      refine ⟨by simp, hc, List.forall_mem_cons.mpr ⟨fun x hx => ?_, fun y hy x hx => htail hy hx⟩,
        List.forall_mem_cons.mpr ⟨fun x _ hlt => absurd hlt (Nat.lt_irrefl i), fun y hy x hx => htail hy hx⟩⟩
      rw [Option.some.inj (hx.symm.trans hc)]
      exact fun hbeat => beats_asymm hbeat hbeat
    · have best := ih hsorted hb
      dsimp only at h
      split at h
      case isTrue hbeats =>
        obtain ⟨rfl, rfl⟩ := Prod.mk.inj (Option.some.inj h)
        have hrest : ∀ y ∈ l, ∀ x, candidate s z y = some x → beats c x = true := fun y hy x hx =>
          beats_of_beats_of_not hbeats (best.unbeaten y hy x hx)
        refine ⟨by simp, hc, List.forall_mem_cons.mpr ⟨fun x hx => ?_, fun y hy x hx => beats_asymm (hrest y hy x hx)⟩,
          List.forall_mem_cons.mpr ⟨fun x _ hlt => absurd hlt (Nat.lt_irrefl i), fun y hy x hx _ => hrest y hy x hx⟩⟩
        rw [Option.some.inj (hx.symm.trans hc)]
        exact fun hbeat => beats_asymm hbeat hbeat
      case isFalse hbeats =>
        obtain ⟨rfl, rfl⟩ := Prod.mk.inj (Option.some.inj h)
        refine ⟨by simp [best.mem], best.candidate, List.forall_mem_cons.mpr ⟨fun x hx => ?_, best.unbeaten⟩,
          List.forall_mem_cons.mpr ⟨fun x _ hlt => absurd hlt (Nat.lt_asymm (hi j best.mem)), best.later⟩⟩
        rwa [← Option.some.inj (hc.symm.trans hx)]

/-- The winning live claim of all slots is the best candidate. -/
theorem bestLive_range {k : Nat} {a : Nat × Nat} :
    bestLive s z (List.range 16) = some (k, a) ↔ IsBest (candidate s z) (List.range 16) k a := by
  have hsorted : (List.range 16).Pairwise (· < ·) := List.pairwise_lt_range
  refine ⟨isBest_of_bestLive hsorted, fun h => ?_⟩
  rcases hb : bestLive s z (List.range 16) with _ | ⟨j, b⟩
  · have hcandidate := h.candidate
    rw [bestLive_eq_none.mp hb k h.mem] at hcandidate
    cases hcandidate
  · rw [(isBest_of_bestLive hsorted hb).unique h]

/-! ### The winner (R100) -/

/-- The winner of a zone where its plan candidate is of level `p`, 0 where there is none, and its live one is `b`. -/
def winnerOf (p : Option Nat) (b : Option (Nat × Nat × Nat)) : Holder × Nat :=
  match p, b with
  | none, none => (.none, 0)
  | some p, none => (.plan, p)
  | none, some (k, l, _) => (.slot k, l)
  | some p, some (k, l, _) => if p < l then (.slot k, l) else (.plan, p)

theorem winner_eq (s : State) (z : Nat) : winner s z = winnerOf (planCandidate s z) (bestLive s z (List.range 16)) := by
  unfold winner winnerOf
  rcases planCandidate s z with _ | p <;> rcases bestLive s z (List.range 16) with _ | ⟨k, l, n⟩ <;> rfl

theorem bestLive_congr {l : List Nat} (h : ∀ k ∈ l, candidate t z k = candidate s z k) :
    bestLive t z l = bestLive s z l := by
  induction l with
  | nil => rfl
  | cons k l ih =>
    rw [bestLive, bestLive, h k (by simp), ih fun j hj => h j (by simp [hj])]

/-- The winner is read from the candidates. -/
theorem winner_congr (hplan : planCandidate t z = planCandidate s z)
    (hlive : ∀ k < 16, candidate t z k = candidate s z k) : winner t z = winner s z := by
  rw [winner_eq, winner_eq, hplan, bestLive_congr fun k hk => hlive k (List.mem_range.mp hk)]

theorem candidate_eq_some {k level stamp : Nat} :
    candidate s z k = some (level, stamp) ↔ ∃ c, s.arbiter.claims.get k = some c ∧ c.state = .onAir stamp ∧
      c.level = level ∧ selects s c.selection z = true ∧ eligible level (s.arbiter.masks.get z) = true := by
  unfold candidate
  rcases hclaim : s.arbiter.claims.get k with _ | c
  · simp
  · rcases hstate : c.state <;> simp [hstate]
    case onAir n =>
      constructor
      · rintro ⟨⟨hselects, heligible⟩, rfl, rfl⟩
        exact ⟨rfl, rfl, hselects, heligible⟩
      · rintro ⟨rfl, rfl, hselects, heligible⟩
        exact ⟨⟨hselects, heligible⟩, rfl, rfl⟩

theorem eligible_iff {level mask : Nat} : eligible level mask = true ↔ level = 7 ∨ mask < level := by
  simp [eligible]

theorem planLevel_ne_seven (kind : PlanKind) : planLevel kind ≠ 7 := by
  cases kind <;> decide

theorem planCandidate_eq_some {p : Nat} :
    planCandidate s z = some p ↔ ∃ kind, s.arbiter.planClaims.get z = some kind ∧ planLevel kind = p ∧
      s.arbiter.masks.get z < p := by
  unfold planCandidate
  rcases s.arbiter.planClaims.get z with _ | kind
  · simp
  · have := planLevel_ne_seven kind
    by_cases hmask : s.arbiter.masks.get z < planLevel kind
    · simp only [eligible_iff, hmask, or_true, if_true, Option.some.injEq, exists_eq_left']
      exact ⟨fun h => ⟨h, h ▸ hmask⟩, And.left⟩
    · simp only [eligible_iff, this, hmask, or_self, if_false, Option.some.injEq, exists_eq_left', reduceCtorEq,
        false_iff]
      rintro ⟨rfl, hlt⟩
      exact hmask hlt

theorem isBest_level_le {f : Nat → Option (Nat × Nat)} {l : List Nat} {k j : Nat} {a b : Nat × Nat}
    (h : IsBest f l k a) (hj : j ∈ l) (hb : f j = some b) : b.1 ≤ a.1 := by
  have := h.unbeaten j hj b hb
  rw [beats_iff] at this
  omega

theorem isBest_stamp {f : Nat → Option (Nat × Nat)} {l : List Nat} {k j level m n : Nat}
    (h : IsBest f l k (level, m)) (hj : j ∈ l) (hb : f j = some (level, n)) : if level = 7 then n ≤ m else m ≤ n := by
  have := h.unbeaten j hj _ hb
  rw [beats_iff] at this
  dsimp only at this
  split <;> simp_all

/-- Settles O44: the winner's four cases, by the plan candidate and the best live one. -/
theorem winnerIsBestCandidate : Obligations.WinnerIsBestCandidate := by
  intro s z onAir plan
  have hlive (k level stamp : Nat) : onAir k level stamp ↔ k ∈ List.range 16 ∧ candidate s z k = some (level, stamp) := by
    rw [List.mem_range, candidate_eq_some]
    simp only [onAir, eligible_iff]
  have hplan (level : Nat) : plan level ↔ planCandidate s z = some level := planCandidate_eq_some.symm
  simp only [hlive, hplan, winner_eq]
  rcases hp : planCandidate s z with _ | p <;> rcases hb : bestLive s z (List.range 16) with _ | ⟨k, level, stamp⟩
  case none.none =>
    have hnone := bestLive_eq_none.mp hb
    have hno {P : Prop} {k level stamp : Nat} (h : k ∈ List.range 16 ∧ candidate s z k = some (level, stamp)) : P := by
      rw [hnone k h.1] at h
      cases h.2
    exact ⟨⟨fun _ => ⟨fun _ _ _ h => hno h, nofun⟩, fun _ => rfl⟩, nofun, nofun, fun _ _ _ h => hno h, nofun⟩
  case some.none =>
    have hnone := bestLive_eq_none.mp hb
    have hno {P : Prop} {k level stamp : Nat} (h : k ∈ List.range 16 ∧ candidate s z k = some (level, stamp)) : P := by
      rw [hnone k h.1] at h
      cases h.2
    refine ⟨⟨nofun, fun h => absurd rfl (h.2 p)⟩, fun _ => rfl, nofun, fun _ _ _ h => hno h, fun level h => ?_⟩
    exact Nat.le_of_eq (Option.some.inj h).symm
  case none.some =>
    have best := bestLive_range.mp hb
    refine ⟨⟨nofun, fun h => absurd ⟨best.mem, best.candidate⟩ (h.1 k level stamp)⟩, nofun, fun j hj => ?_,
      fun j l n h => isBest_level_le best h.1 h.2, nofun⟩
    obtain rfl : k = j := Holder.slot.inj hj
    exact ⟨stamp, ⟨best.mem, best.candidate⟩, fun j other h => isBest_stamp best h.1 h.2⟩
  case some.some =>
    have best := bestLive_range.mp hb
    have hle : ∀ j l n, j ∈ List.range 16 ∧ candidate s z j = some (l, n) → l ≤ level :=
      fun j l n h => isBest_level_le best h.1 h.2
    by_cases hlt : p < level
    · simp only [winnerOf, if_pos hlt]
      refine ⟨⟨nofun, fun h => absurd rfl (h.2 p)⟩, nofun, fun j hj => ?_, hle, fun l h => ?_⟩
      · obtain rfl : k = j := Holder.slot.inj hj
        exact ⟨stamp, ⟨best.mem, best.candidate⟩, fun j other h => isBest_stamp best h.1 h.2⟩
      · exact Nat.le_of_lt (Option.some.inj h ▸ hlt)
    · simp only [winnerOf, if_neg hlt]
      refine ⟨⟨nofun, fun h => absurd rfl (h.2 p)⟩, fun _ => trivial, nofun,
        fun j l n h => Nat.le_trans (hle j l n h) (Nat.not_lt.mp hlt), fun l h => ?_⟩
      exact Nat.le_of_eq (Option.some.inj h).symm

end Sys2Proof.Machine
end

section
/-! SUPPORT. The laws of the state kept through a stretch of work (Kept): while the work lasts the holder law may fail on the zones
named, whose choices are still to be made. Then each elementary change of the blocks keeps them. -/

namespace Sys2Proof.Machine

/-! ### The laws while choices are still to be made -/

/-- Zones named by what holds of them. -/
abbrev Zones := Nat → Prop

def Zones.empty : Zones := fun _ => False

def Zones.every : Zones := fun _ => True

def Zones.or (D E : Zones) : Zones := fun z => D z ∨ E z

def Zones.but (D E : Zones) : Zones := fun z => D z ∧ ¬E z

/-- The holder law on every zone but those of `D`, whose choices are still to be made. -/
def Holders (D : Zones) (s : State) : Prop := ∀ z < 128, ¬D z → HolderLaw s z

/-- What a zone's holder record keeps of its law while the zone's choice is still to be made. -/
structure RecordShape (s : State) (z : Nat) : Prop where
  none : s.arbiter.holders.get z = .none → s.crosspoint.records.get z = .none
  plan : s.arbiter.holders.get z = .plan → ∃ kind, s.crosspoint.records.get z = .plan kind
  slot : ∀ k, s.arbiter.holders.get z = .slot k → ∀ c, s.arbiter.claims.get k = some c →
    s.crosspoint.records.get z = .slot k c.channel

theorem RecordLaw.shape {s : State} {z : Nat} (h : RecordLaw s z) : RecordShape s z where
  none := h.none
  plan hplan := by
    obtain ⟨kind, -, hrecord⟩ := h.plan hplan
    exact ⟨kind, hrecord⟩
  slot k hslot c hc := by
    obtain ⟨d, hd, hrecord⟩ := h.slot k hslot
    rw [hrecord, Option.some.inj (hd.symm.trans hc)]

/-- The law of the holder records on every zone but those of `D`, and their shape on all. -/
structure Records (D : Zones) (s : State) : Prop where
  shape : ∀ z < 128, RecordShape s z
  law : ∀ z < 128, ¬D z → RecordLaw s z

theorem records_empty {s : State} : Records .empty s ↔ ∀ z < 128, RecordLaw s z :=
  ⟨fun h z hz => h.law z hz id, fun h => ⟨fun z hz => (h z hz).shape, fun z hz _ => h z hz⟩⟩

theorem holders_empty {s : State} : Holders .empty s ↔ ∀ z < 128, HolderLaw s z :=
  ⟨fun h z hz => h z hz id, fun h z hz _ => h z hz⟩

/-- The place waits for the command in hand. -/
def Place.isHand : Place → Bool
  | .reserved .command _ => true
  | _ => false

/-- The number of places that wait for the command in hand. -/
def Router.hands (r : Router) : Nat := r.places.countP Place.isHand

theorem handLaw_iff {r : Router} : HandLaw r ↔ r.hands = 0 := by
  unfold HandLaw Router.hands
  rw [List.countP_eq_zero]
  refine forall₂_congr fun p _ => ?_
  rcases p with ⟨w, q⟩ | a
  · cases w <;> simp [Place.isHand]
  · simp [Place.isHand]

/-- What some work may change beside the arbiter's claims and holders: the plan claims, the Sequencer with the reservation
it asks for, the Incident Engine; and whether the zones that the work names are zones of the part. -/
structure Reach where
  plan : Prop
  sequencer : Prop
  engine : Prop
  inRange : Prop

/-- The laws that concern one block, or the edit, kept from `s` to `t`. -/
structure BlocksKept (s t : State) : Prop where
  pending : t.pending = s.pending
  fault : FaultUnitLaw s.faultUnit → FaultUnitLaw t.faultUnit
  demand : DemandLaw s.engine → DemandLaw t.engine
  incident : IncidentLaw s.engine → IncidentLaw t.engine
  edit : EditLaw s → EditLaw t
  router : RouterLaw s.router → RouterLaw t.router
  hand : t.router.hands ≤ s.router.hands

/-- The laws of claims, holders and zones, but for counts and ranges, kept from `s`, where choices are to be made on `D`, to `t`, where on `E`. -/
structure ZonesKept (D : Zones) (s : State) (E : Zones) (t : State) : Prop where
  channel : ChannelLaw s.arbiter → ChannelLaw t.arbiter
  stamp : StampLaw s.arbiter → StampLaw t.arbiter
  holder : Holders D s → Holders E t
  record : Holders D s → Records D s → Records E t

/-- What the work does not reach stays. -/
structure ReachKept (x : Reach) (s t : State) : Prop where
  plan : ¬x.plan → t.arbiter.planClaims = s.arbiter.planClaims
  sequencer : ¬x.sequencer → t.sequencer = s.sequencer
  engine : ¬x.engine → t.engine = s.engine
  reserved : ¬x.sequencer → t.arbiter.reserved = none ∨ t.arbiter.reserved = s.arbiter.reserved

/-- Work within the reach `x` that leads from `s`, where choices are to be made on `D`, to `t`, where on `E`, keeps the laws. -/
structure Kept (x : Reach) (D : Zones) (s : State) (E : Zones) (t : State) : Prop extends
  BlocksKept s t, ZonesKept D s E t, ReachKept x s t where
  zone : x.inRange → ZoneLaw s → ZoneLaw t
  count : x.inRange → Holders D s → ZoneLaw s → CountLaw s.arbiter → CountLaw t.arbiter

variable {x : Reach} {D E F : Zones} {s t u : State}

theorem BlocksKept.refl (s : State) : BlocksKept s s := ⟨rfl, id, id, id, id, id, Nat.le_refl _⟩

theorem ZonesKept.refl (D : Zones) (s : State) : ZonesKept D s D s := ⟨id, id, id, fun _ => id⟩

theorem ReachKept.refl (x : Reach) (s : State) : ReachKept x s s :=
  ⟨fun _ => rfl, fun _ => rfl, fun _ => rfl, fun _ => .inr rfl⟩

theorem Kept.refl (x : Reach) (D : Zones) (s : State) : Kept x D s D s :=
  ⟨.refl s, .refl D s, .refl x s, fun _ => id, fun _ _ _ => id⟩

theorem BlocksKept.trans (h : BlocksKept s t) (g : BlocksKept t u) : BlocksKept s u where
  pending := g.pending.trans h.pending
  fault := g.fault ∘ h.fault
  demand := g.demand ∘ h.demand
  incident := g.incident ∘ h.incident
  edit := g.edit ∘ h.edit
  router := g.router ∘ h.router
  hand := Nat.le_trans g.hand h.hand

theorem ZonesKept.trans (h : ZonesKept D s E t) (g : ZonesKept E t F u) : ZonesKept D s F u where
  channel := g.channel ∘ h.channel
  stamp := g.stamp ∘ h.stamp
  holder := g.holder ∘ h.holder
  record hs hr := g.record (h.holder hs) (h.record hs hr)

theorem ReachKept.trans (h : ReachKept x s t) (g : ReachKept x t u) : ReachKept x s u where
  plan hx := (g.plan hx).trans (h.plan hx)
  sequencer hx := (g.sequencer hx).trans (h.sequencer hx)
  engine hx := (g.engine hx).trans (h.engine hx)
  reserved hx := (g.reserved hx).elim .inl fun hu => (h.reserved hx).imp (hu.trans ·) (hu.trans ·)

theorem Kept.trans (h : Kept x D s E t) (g : Kept x E t F u) : Kept x D s F u :=
  ⟨h.toBlocksKept.trans g.toBlocksKept, h.toZonesKept.trans g.toZonesKept, h.toReachKept.trans g.toReachKept,
    fun hx hz => g.zone hx (h.zone hx hz), fun hx hs hz hc => g.count hx (h.holder hs) (h.zone hx hz) (h.count hx hs hz hc)⟩

/-- Where the pointers or zones are out of range at the start, no range or count is claimed. -/
theorem Kept.of_range (h : ∀ r : Prop, (r → ZoneLaw s) → Kept { x with inRange := r } D s E t) : Kept x D s E t := by
  by_cases hz : ZoneLaw s
  · exact h x.inRange fun _ => hz
  · exact { h False False.elim with
      zone := fun _ hl => absurd hl hz
      count := fun _ _ hl => absurd hl hz }

theorem Holders.mono (hsub : ∀ z < 128, D z → E z) (h : Holders D s) : Holders E s := fun z hz hE =>
  h z hz fun hD => hE (hsub z hz hD)

theorem Records.mono (hsub : ∀ z < 128, D z → E z) (h : Records D s) : Records E s :=
  ⟨h.shape, fun z hz hE => h.law z hz fun hD => hE (hsub z hz hD)⟩

/-- More choices may be thought to be made. -/
theorem Kept.weaken (h : Kept x D s E t) (hsub : ∀ z < 128, E z → F z) : Kept x D s F t :=
  { h with
    holder := fun hs => (h.holder hs).mono hsub
    record := fun hs hr => (h.record hs hr).mono hsub }

/-- A walk whose every step keeps the laws keeps them. -/
theorem Kept.foldl {α : Type} {f : State → α → State} (h : ∀ t a, Kept x D t D (f t a)) (l : List α) (s : State) :
    Kept x D s D (l.foldl f s) := by
  induction l generalizing s with
  | nil => exact .refl x D s
  | cons a l ih => exact (h s a).trans (ih (f s a))

/-! ### The laws of claims and holders read from less than the state -/

/-- What a claim that is ON-AIR is a candidate with: its level, its selection and its stamp (R100). -/
def Claim.air (c : Claim) : Option (Nat × Selection × Nat) := c.onAirStamp.map fun n => (c.level, c.selection, n)

theorem candidate_eq (s : State) (z k : Nat) :
    candidate s z k = ((s.arbiter.claims.get k).bind Claim.air).bind fun a =>
      if selects s a.2.1 z && eligible a.1 (s.arbiter.masks.get z) then some (a.1, a.2.2) else none := by
  unfold candidate Claim.air Claim.onAirStamp
  rcases s.arbiter.claims.get k with _ | c
  · rfl
  · rcases hstate : c.state <;> simp [hstate]

theorem selects_congr {z : Nat} (h : groupOf t z = groupOf s z) (sel : Selection) :
    selects t sel z = selects s sel z := by
  unfold selects
  rw [h]

theorem candidate_congr {z k : Nat} (hgroup : groupOf t z = groupOf s z)
    (hmask : t.arbiter.masks.get z = s.arbiter.masks.get z)
    (hair : (t.arbiter.claims.get k).bind Claim.air = (s.arbiter.claims.get k).bind Claim.air) :
    candidate t z k = candidate s z k := by
  simp only [candidate_eq, hair, hmask, selects_congr hgroup]

theorem planCandidate_congr {z : Nat} (hplan : t.arbiter.planClaims.get z = s.arbiter.planClaims.get z)
    (hmask : t.arbiter.masks.get z = s.arbiter.masks.get z) : planCandidate t z = planCandidate s z := by
  unfold planCandidate
  rw [hplan, hmask]

/-- What the winner of zone `z` is read from, alike in two states. -/
structure SameCandidates (z : Nat) (s t : State) : Prop where
  group : groupOf t z = groupOf s z
  mask : t.arbiter.masks.get z = s.arbiter.masks.get z
  plan : t.arbiter.planClaims.get z = s.arbiter.planClaims.get z
  air : ∀ k < 16, (t.arbiter.claims.get k).bind Claim.air = (s.arbiter.claims.get k).bind Claim.air

theorem SameCandidates.winner {z : Nat} (h : SameCandidates z s t) : winner t z = winner s z :=
  winner_congr (planCandidate_congr h.plan h.mask) fun k hk => candidate_congr h.group h.mask (h.air k hk)

/-- The holder law is read from the zone's holder, its winner and whether it is the zone reserved. -/
theorem HolderLaw.congr {z : Nat} (h : HolderLaw s z) (hholder : t.arbiter.holders.get z = s.arbiter.holders.get z)
    (hreserved : t.arbiter.reserved = some z ↔ s.arbiter.reserved = some z) (hwinner : Machine.winner t z = Machine.winner s z) :
    HolderLaw t z where
  reserved hr := by
    rw [hholder, hwinner]
    exact h.reserved (hreserved.mp hr)
  winner hr := by
    rw [hholder, hwinner]
    exact h.winner (mt hreserved.mpr hr)

/-- The channels of the claims of `t` are channels of claims of `s` in the same slots. -/
theorem ChannelLaw.of_claims {a b : Arbiter} (h : ChannelLaw a)
    (hfrom : ∀ k < 16, ∀ c, b.claims.get k = some c → ∃ d, a.claims.get k = some d ∧ d.channel = c.channel) :
    ChannelLaw b := by
  intro j hj k hk hne c d hc hd
  obtain ⟨c', hc', hcc⟩ := hfrom j hj c hc
  obtain ⟨d', hd', hdd⟩ := hfrom k hk d hd
  rw [← hcc, ← hdd]
  exact h j hj k hk hne c' d' hc' hd'

/-- The claims of `t` have the stamps of claims of `s` in the same slots. -/
theorem StampLaw.of_claims {a b : Arbiter} (h : StampLaw a) (harrival : b.arrivalCounter = a.arrivalCounter)
    (honAir : b.onAirCounter = a.onAirCounter)
    (hfrom : ∀ k < 16, ∀ c, b.claims.get k = some c →
      ∃ d, a.claims.get k = some d ∧ d.arrival = c.arrival ∧ d.onAirStamp = c.onAirStamp) : StampLaw b := by
  have hstamp : ∀ k < 16, ∀ n, (b.claims.get k).bind Claim.onAirStamp = some n →
      (a.claims.get k).bind Claim.onAirStamp = some n := by
    intro k hk n hn
    obtain ⟨c, hc, hcn⟩ := Option.bind_eq_some_iff.mp hn
    obtain ⟨d, hd, -, hdn⟩ := hfrom k hk c hc
    exact Option.bind_eq_some_iff.mpr ⟨d, hd, hdn.trans hcn⟩
  refine ⟨harrival ▸ h.arrivalCounter, honAir ▸ h.onAirCounter, fun k hk c hc => ?_, fun k hk n hn => ?_,
    fun j hj k hk hne c d hc hd => ?_, fun j hj k hk hne n hn hm => ?_⟩
  · obtain ⟨d, hd, hdc, -⟩ := hfrom k hk c hc
    rw [harrival, ← hdc]
    exact h.arrivals k hk d hd
  · rw [honAir]
    exact h.stamps k hk n (hstamp k hk n hn)
  · obtain ⟨c', hc', hcc, -⟩ := hfrom j hj c hc
    obtain ⟨d', hd', hdd, -⟩ := hfrom k hk d hd
    rw [← hcc, ← hdd]
    exact h.arrivalsDiffer j hj k hk hne c' d' hc' hd'
  · exact h.stampsDiffer j hj k hk hne n (hstamp j hj n hn) (hstamp k hk n hm)

theorem zonesOf_congr {a b : Arbiter} (h : ∀ z < 128, b.holders.get z = a.holders.get z) (k : Nat) :
    zonesOf b k = zonesOf a k := by
  unfold zonesOf indices
  refine List.filter_congr fun z hz => ?_
  rw [h z (List.mem_range.mp hz)]

theorem CountLaw.of_claims {a b : Arbiter} (h : CountLaw a) (hholders : b.holders = a.holders)
    (hfrom : ∀ k < 16, ∀ c, b.claims.get k = some c → ∃ d, a.claims.get k = some d ∧ d.zonesHeld = c.zonesHeld) :
    CountLaw b := by
  intro k hk c hc
  obtain ⟨d, hd, hdc⟩ := hfrom k hk c hc
  rw [← hdc, h k hk d hd, zonesOf_congr fun z _ => by rw [hholders]]

/-- The record law is read from the zone's holder, plan claim and record, and from the channels of the claims. -/
theorem RecordLaw.congr {z : Nat} (h : RecordLaw s z) (hholder : t.arbiter.holders.get z = s.arbiter.holders.get z)
    (hrecord : t.crosspoint.records.get z = s.crosspoint.records.get z)
    (hplan : t.arbiter.planClaims.get z = s.arbiter.planClaims.get z)
    (hslot : ∀ k, s.arbiter.holders.get z = .slot k → ∀ c, s.arbiter.claims.get k = some c →
      ∃ d, t.arbiter.claims.get k = some d ∧ d.channel = c.channel) : RecordLaw t z where
  none hh := by
    rw [hrecord]
    exact h.none (hholder ▸ hh)
  plan hh := by
    rw [hrecord, hplan]
    exact h.plan (hholder ▸ hh)
  slot k hh := by
    obtain ⟨c, hc, hrec⟩ := h.slot k (hholder ▸ hh)
    obtain ⟨d, hd, hdc⟩ := hslot k (hholder ▸ hh) c hc
    exact ⟨d, hd, by rw [hrecord, hrec, hdc]⟩

theorem RecordShape.congr {z : Nat} (h : RecordShape s z) (hholder : t.arbiter.holders.get z = s.arbiter.holders.get z)
    (hrecord : t.crosspoint.records.get z = s.crosspoint.records.get z)
    (hslot : ∀ k, s.arbiter.holders.get z = .slot k → ∀ d, t.arbiter.claims.get k = some d →
      ∃ c, s.arbiter.claims.get k = some c ∧ c.channel = d.channel) : RecordShape t z where
  none hh := by
    rw [hrecord]
    exact h.none (hholder ▸ hh)
  plan hh := by
    rw [hrecord]
    exact h.plan (hholder ▸ hh)
  slot k hh d hd := by
    obtain ⟨c, hc, hcd⟩ := hslot k (hholder ▸ hh) d hd
    rw [hrecord, h.slot k (hholder ▸ hh) c hc, hcd]

/-! ### Changes outside the arbiter -/

/-- What the laws of zones are read from, alike in two states but for the Sequencer's own zones. -/
structure SameZones (s t : State) : Prop where
  arbiter : t.arbiter = s.arbiter
  group : ∀ z < 128, groupOf t z = groupOf s z
  records : t.crosspoint.records = s.crosspoint.records

theorem SameZones.winner (h : SameZones s t) {z : Nat} (hz : z < 128) : winner t z = winner s z :=
  SameCandidates.winner ⟨h.group z hz, by rw [h.arbiter], by rw [h.arbiter], fun _ _ => by rw [h.arbiter]⟩

theorem SameZones.kept (h : SameZones s t) : ZonesKept D s D t where
  channel hl := h.arbiter ▸ hl
  stamp hl := h.arbiter ▸ hl
  holder hl z hz hD := (hl z hz hD).congr (by rw [h.arbiter]) (by rw [h.arbiter]) (h.winner hz)
  record _ hl := by
    refine ⟨fun z hz => (hl.shape z hz).congr (by rw [h.arbiter]) (by rw [h.records]) fun k _ c hc => ?_,
      fun z hz hD => (hl.law z hz hD).congr (by rw [h.arbiter]) (by rw [h.records]) (by rw [h.arbiter])
        fun k _ c hc => ?_⟩
    · exact ⟨c, h.arbiter ▸ hc, rfl⟩
    · exact ⟨c, h.arbiter.symm ▸ hc, rfl⟩

theorem ZoneLaw.congr (h : ZoneLaw s) (hsequencer : t.sequencer = s.sequencer)
    (hreserved : t.arbiter.reserved = s.arbiter.reserved) : ZoneLaw t where
  pointer := hsequencer ▸ h.pointer
  scrub := hsequencer ▸ h.scrub
  step := hsequencer ▸ h.step
  reserved := hreserved ▸ h.reserved

/-- A change of blocks that the laws of zones do not read. -/
theorem Kept.of_blocks (h : BlocksKept s t) (hzones : SameZones s t) (hsequencer : t.sequencer = s.sequencer)
    (hengine : ¬x.engine → t.engine = s.engine) : Kept x D s D t :=
  ⟨h, hzones.kept, ⟨fun _ => by rw [hzones.arbiter], fun _ => hsequencer, hengine, fun _ => .inr (by rw [hzones.arbiter])⟩,
    fun _ hz => hz.congr hsequencer (by rw [hzones.arbiter]), fun _ _ _ hl => hzones.arbiter ▸ hl⟩

/-- A change of the Fault Unit that keeps its law. -/
theorem Kept.onFaultUnit {f : FaultUnit → FaultUnit} (h : FaultUnitLaw s.faultUnit → FaultUnitLaw (f s.faultUnit)) :
    Kept x D s D (s.onFaultUnit f) :=
  .of_blocks { BlocksKept.refl s with fault := h } ⟨rfl, fun _ _ => rfl, rfl⟩ rfl fun _ => rfl

/-- A change of the Cell Router that keeps its law and leaves no further place waiting for the command in hand. -/
theorem Kept.onRouter {f : Router → Router} (h : RouterLaw s.router → RouterLaw (f s.router))
    (hhand : (f s.router).hands ≤ s.router.hands := by exact Nat.le_refl _) : Kept x D s D (s.onRouter f) :=
  .of_blocks { BlocksKept.refl s with router := h, hand := hhand } ⟨rfl, fun _ _ => rfl, rfl⟩ rfl fun _ => rfl

theorem Kept.onTimer (f : FrameTimer → FrameTimer) : Kept x D s D (s.onTimer f) :=
  .of_blocks { BlocksKept.refl s with } ⟨rfl, fun _ _ => rfl, rfl⟩ rfl fun _ => rfl

theorem Kept.onSPort (f : SPort → SPort) : Kept x D s D (s.onSPort f) :=
  .of_blocks { BlocksKept.refl s with } ⟨rfl, fun _ _ => rfl, rfl⟩ rfl fun _ => rfl

theorem Kept.onZPort (f : ZPort → ZPort) : Kept x D s D (s.onZPort f) :=
  .of_blocks { BlocksKept.refl s with } ⟨rfl, fun _ _ => rfl, rfl⟩ rfl fun _ => rfl

theorem Kept.send (m : SequencerMail) : Kept x D s D (s.send m) :=
  .of_blocks { BlocksKept.refl s with } ⟨rfl, fun _ _ => rfl, rfl⟩ rfl fun _ => rfl

theorem Kept.dropMail (rest : List SequencerMail) : Kept x D s D { s with mail := rest } :=
  .of_blocks { BlocksKept.refl s with } ⟨rfl, fun _ _ => rfl, rfl⟩ rfl fun _ => rfl

/-- A change of the Crosspoint beside the holder records. -/
theorem Kept.onCrosspoint {f : Crosspoint → Crosspoint}
    (h : (f s.crosspoint).records = s.crosspoint.records := by rfl) :
    Kept x D s D (s.onCrosspoint f) :=
  .of_blocks { BlocksKept.refl s with } ⟨rfl, fun _ _ => rfl, h⟩ rfl fun _ => rfl

/-- An edit is opened only while the part is quiet. -/
theorem Kept.setEdit {e : Option Edit} (h : e.isSome = true → s.tables.edit.isSome = true ∨ s.quiet = true) :
    Kept x D s D (s.setEdit e) :=
  .of_blocks { BlocksKept.refl s with edit := fun hl he => (h he).elim hl id } ⟨rfl, fun _ _ => rfl, rfl⟩ rfl fun _ => rfl

/-- No incident is listed and GENERAL is clear. -/
def Engine.Quiet (e : Engine) : Prop := e.incidents = [] ∧ e.general = none

theorem quiet_iff : s.quiet = true ↔ s.engine.Quiet := by
  simp [State.quiet, Engine.Quiet]

/-- A change of the Incident Engine that keeps its laws, with no edit or with the part left quiet where it was. -/
theorem Kept.onEngine {f : Engine → Engine} (hx : x.engine) (hdemand : DemandLaw s.engine → DemandLaw (f s.engine))
    (hincident : IncidentLaw s.engine → IncidentLaw (f s.engine))
    (hedit : s.tables.edit = none ∨ (s.engine.Quiet → (f s.engine).Quiet)) : Kept x D s D (s.onEngine f) :=
  .of_blocks
    { BlocksKept.refl s with
      demand := hdemand, incident := hincident
      edit := fun hl he => by
        rcases hedit with hnone | hquiet
        · rw [State.onEngine_tables, hnone] at he
          cases he
        · exact quiet_iff.mpr (hquiet (quiet_iff.mp (hl he))) }
    ⟨rfl, fun _ _ => rfl, rfl⟩ rfl fun hno => absurd hx hno

/-- A change of the Sequencer that keeps its zones in range. -/
theorem Kept.onSequencer {f : Sequencer → Sequencer} (hx : x.sequencer)
    (h : x.inRange → ZoneLaw s → ZoneLaw (s.onSequencer f)) : Kept x D s D (s.onSequencer f) :=
  ⟨{ BlocksKept.refl s with }, SameZones.kept ⟨rfl, fun _ _ => rfl, rfl⟩,
    ⟨fun _ => rfl, fun hno => absurd hx hno, fun _ => rfl, fun _ => .inr rfl⟩, h, fun _ _ _ hl => hl⟩

/-! ### Marks, masks, plan claims and the reservation -/

/-- A change of the arbiter that leaves the claims and holders as they were and touches the winner only on `E`. -/
theorem ZonesKept.of_inputs (hclaims : t.arbiter.claims = s.arbiter.claims)
    (hholders : t.arbiter.holders = s.arbiter.holders) (harrival : t.arbiter.arrivalCounter = s.arbiter.arrivalCounter)
    (honAir : t.arbiter.onAirCounter = s.arbiter.onAirCounter) (hrecords : t.crosspoint.records = s.crosspoint.records)
    (hsub : ∀ z, D z → E z)
    (hreserved : ∀ z < 128, ¬E z → (t.arbiter.reserved = some z ↔ s.arbiter.reserved = some z))
    (hsame : ∀ z < 128, ¬E z → SameCandidates z s t) : ZonesKept D s E t where
  channel hl := hl.of_claims fun k _ c hc => ⟨c, hclaims ▸ hc, rfl⟩
  stamp hl := hl.of_claims harrival honAir fun k _ c hc => ⟨c, hclaims ▸ hc, rfl, rfl⟩
  holder hl z hz hE :=
    (hl z hz fun hD => hE (hsub z hD)).congr (by rw [hholders]) (hreserved z hz hE) (hsame z hz hE).winner
  record _ hl :=
    ⟨fun z hz => (hl.shape z hz).congr (by rw [hholders]) (by rw [hrecords]) fun k _ c hc => ⟨c, hclaims ▸ hc, rfl⟩,
      fun z hz hE => (hl.law z hz fun hD => hE (hsub z hD)).congr (by rw [hholders]) (by rw [hrecords])
        (hsame z hz hE).plan fun k _ c hc => ⟨c, hclaims.symm ▸ hc, rfl⟩⟩

theorem zoneRef_injective {y z : Nat} (h : zoneRef y = zoneRef z) : y = z := congrArg EntryRef.index h

/-- A mark put on an entry touches the winner of that entry's zone alone. -/
theorem Kept.setMark (r : EntryRef) : Kept x D s (D.or fun z => r = zoneRef z) (s.setMark r) := by
  refine ⟨{ BlocksKept.refl s with }, ?_, ⟨fun _ => rfl, fun _ => rfl, fun _ => rfl, fun _ => .inr rfl⟩,
    fun _ hz => hz.congr rfl rfl, fun _ _ _ hl => hl⟩
  refine ZonesKept.of_inputs rfl rfl rfl rfl rfl (fun _ => .inl) (fun _ _ _ => Iff.rfl)
    fun z _ hE => ⟨?_, rfl, rfl, fun _ _ => rfl⟩
  have hne : zoneRef z ≠ r := fun h => hE (.inr h.symm)
  unfold groupOf
  rw [marked_setMark, decide_eq_false hne, Bool.false_or]
  rfl

/-- Masks changed, the choices of the zones whose masks differ still to be made. -/
theorem Kept.setMasks (m : Tab Nat 128) :
    Kept x D s (D.or fun z => m.get z ≠ s.arbiter.masks.get z) (s.onArbiter fun a => { a with masks := m }) := by
  refine ⟨{ BlocksKept.refl s with }, ?_, ⟨fun _ => rfl, fun _ => rfl, fun _ => rfl, fun _ => .inr rfl⟩,
    fun _ hz => hz.congr rfl rfl, fun _ _ _ hl => hl⟩
  refine ZonesKept.of_inputs rfl rfl rfl rfl rfl (fun _ => .inl) (fun _ _ _ => Iff.rfl)
    fun z _ hE => ⟨rfl, Classical.not_not.mp fun hne => hE (.inr hne), rfl, fun _ _ => rfl⟩

/-- Plan claims changed, the choices of the zones whose plan claims differ still to be made. -/
theorem Kept.setPlanClaims (hx : x.plan) (p : Tab (Option PlanKind) 128) :
    Kept x D s (D.or fun z => p.get z ≠ s.arbiter.planClaims.get z) (s.onArbiter fun a => { a with planClaims := p }) := by
  refine ⟨{ BlocksKept.refl s with }, ?_, ⟨fun hno => absurd hx hno, fun _ => rfl, fun _ => rfl, fun _ => .inr rfl⟩,
    fun _ hz => hz.congr rfl rfl, fun _ _ _ hl => hl⟩
  refine ZonesKept.of_inputs rfl rfl rfl rfl rfl (fun _ => .inl) (fun _ _ _ => Iff.rfl)
    fun z _ hE => ⟨rfl, rfl, Classical.not_not.mp fun hne => hE (.inr hne), fun _ _ => rfl⟩

/-- The reservation changed, the choices of the zones it leaves and takes still to be made. -/
theorem Kept.setReserved {r : Option Nat} (hr : r = none ∨ x.sequencer) 
    (h : x.inRange → ∀ z, r = some z → z < 128) :
    Kept x D s (D.or fun z => s.arbiter.reserved = some z ∨ r = some z) (s.onArbiter fun a => { a with reserved := r }) := by
  refine ⟨{ BlocksKept.refl s with }, ?_, ⟨fun _ => rfl, fun _ => rfl, fun _ => rfl, fun hno => .inl (hr.resolve_right hno)⟩,
    fun hx hz => ⟨hz.pointer, hz.scrub, hz.step, h hx⟩, fun _ _ _ hl => hl⟩
  refine ZonesKept.of_inputs rfl rfl rfl rfl rfl (fun _ => .inl)
    (fun z _ hE => ?_) fun z _ hE => ⟨rfl, rfl, rfl, fun _ _ => rfl⟩
  exact ⟨fun hr => absurd (.inr (.inr hr)) hE, fun hr => absurd (.inr (.inl hr)) hE⟩

/-- A new image in effect: every zone's choice is still to be made. -/
theorem Kept.setTables {tables : TableStore} (h : tables.edit = none) :
    Kept x D s .every (s.onTables fun _ => tables) := by
  have hnot {P : Prop} {z : Nat} (hE : ¬Zones.every z) : P := absurd trivial hE
  refine ⟨{ BlocksKept.refl s with edit := fun _ he => ?_ }, ?_, ⟨fun _ => rfl, fun _ => rfl, fun _ => rfl, fun _ => .inr rfl⟩,
    fun _ hz => hz.congr rfl rfl, fun _ _ _ hl => hl⟩
  · rw [State.onTables_tables, h] at he
    cases he
  · exact ZonesKept.of_inputs rfl rfl rfl rfl rfl (fun _ _ => trivial)
      (fun _ _ hE => hnot hE) fun _ _ hE => hnot hE

end Sys2Proof.Machine
end

section
/-! SUPPORT. The stamps and their renumbering (R84): the place of a stamp among those held, and what a new stamp leaves of the
others. -/

namespace Sys2Proof.Machine

theorem Tab.items_eq_map_get {α : Type} [Inhabited α] {n : Nat} (t : Tab α n) : t.items = (List.range n).map t.get := by
  apply List.ext_getElem
  · simp [t.size]
  · intro i hi hj
    simp [Tab.get, List.getD_eq_getElem?_getD, List.getElem?_eq_getElem hi]

/-- A slot beyond the table holds no claim. -/
theorem claims_beyond {a : Arbiter} {k : Nat} (h : 16 ≤ k) : a.claims.get k = none := Tab.get_beyond _ h

theorem slot_lt {a : Arbiter} {k : Nat} {c : Claim} (h : a.claims.get k = some c) : k < 16 := by
  refine Nat.lt_of_not_le fun hk => ?_
  rw [claims_beyond hk] at h
  cases h

/-! ### The stamps of a kind that are held (R84) -/

/-- The stamps of a kind held by the claims of the table, by slot. -/
def Arbiter.stampsOf (stamp : Claim → Option Nat) (a : Arbiter) : List Nat :=
  (List.range 16).filterMap fun k => (a.claims.get k).bind stamp

theorem length_filter_filterMap {α β : Type} (f : α → Option β) (p : β → Bool) (l : List α) :
    ((l.filterMap f).filter p).length = (l.filter fun a => (f a).any p).length := by
  induction l with
  | nil => rfl
  | cons a l ih =>
    rcases ha : f a with _ | b
    · simp [ha, ih]
    · rcases hb : p b <;> simp [ha, hb, ih]

theorem rankOf_stampsOf (stamp : Claim → Option Nat) (n : Nat) (a : Arbiter) :
    rankOf n (a.stampsOf stamp) = a.placeOf stamp n := length_filter_filterMap _ _ _

theorem length_stampsOf (stamp : Claim → Option Nat) (a : Arbiter) : (a.stampsOf stamp).length = a.countOf stamp := by
  have := length_filter_filterMap (fun k => (a.claims.get k).bind stamp) (fun _ => true) (List.range 16)
  rw [List.filter_eq_self.mpr fun _ _ => rfl] at this
  rw [Arbiter.stampsOf, this, Arbiter.countOf]
  rfl

theorem arrivals_eq (a : Arbiter) : a.arrivals = a.stampsOf fun c => some c.arrival := by
  unfold Arbiter.arrivals Arbiter.stampsOf
  rw [Tab.items_eq_map_get, List.filterMap_map]
  congr 1
  funext k
  rcases ha : a.claims.get k with _ | c <;> simp [ha]

theorem onAirStamps_eq (a : Arbiter) : a.onAirStamps = a.stampsOf Claim.onAirStamp := by
  unfold Arbiter.onAirStamps Arbiter.stampsOf
  rw [Tab.items_eq_map_get, List.filterMap_map]
  congr 1
  funext k
  rcases ha : a.claims.get k with _ | c
  · simp [ha]
  · rcases hc : c.state <;> simp [ha, hc, Claim.onAirStamp] <;> (rcases c with ⟨⟩; simp_all)

variable {stamp : Claim → Option Nat} {a : Arbiter} {j k m n : Nat}

/-- The stamp `n` is held in slot `k`. -/
def Arbiter.HoldsStamp (stamp : Claim → Option Nat) (a : Arbiter) (k n : Nat) : Prop :=
  k < 16 ∧ (a.claims.get k).bind stamp = some n

theorem placeOf_le_countOf : a.placeOf stamp m ≤ a.countOf stamp := by
  unfold Arbiter.placeOf Arbiter.countOf
  refine List.Sublist.length_le (filter_sublist_filter _ fun k hk => ?_)
  rcases h : (a.claims.get k).bind stamp with _ | n
  · rw [h] at hk; cases hk
  · rfl

theorem countOf_le : a.countOf stamp ≤ 16 := Nat.le_trans (List.length_filter_le _ _) (by simp)

theorem one_le_placeOf (h : a.HoldsStamp stamp j m) : 1 ≤ a.placeOf stamp m := by
  refine List.length_pos_iff.mpr (List.ne_nil_of_mem (a := j) ?_)
  simp [h.1, h.2]

theorem placeOf_mono (h : m ≤ n) : a.placeOf stamp m ≤ a.placeOf stamp n := by
  refine List.Sublist.length_le (filter_sublist_filter _ fun k hk => ?_)
  rcases hs : (a.claims.get k).bind stamp with _ | i
  · rw [hs] at hk; cases hk
  · rw [hs] at hk
    have hle : i ≤ m := of_decide_eq_true hk
    exact decide_eq_true (Nat.le_trans hle h)

/-- A lower stamp comes before: its claims are counted below the higher one, with the claim that holds that beside them. -/
theorem placeOf_lt (hn : a.HoldsStamp stamp k n) (h : m < n) : a.placeOf stamp m < a.placeOf stamp n := by
  refine Nat.lt_of_le_of_ne (placeOf_mono (Nat.le_of_lt h)) fun heq => ?_
  have hsub : ((List.range 16).filter fun k => ((a.claims.get k).bind stamp).any fun i => decide (i ≤ m)).Sublist
      ((List.range 16).filter fun k => ((a.claims.get k).bind stamp).any fun i => decide (i ≤ n)) := by
    refine filter_sublist_filter _ fun k hk => ?_
    rcases hs : (a.claims.get k).bind stamp with _ | i
    · rw [hs] at hk; cases hk
    · rw [hs] at hk
      have hle : i ≤ m := of_decide_eq_true hk
      exact decide_eq_true (Nat.le_trans hle (Nat.le_of_lt h))
  have hmem : k ∈ (List.range 16).filter fun k => ((a.claims.get k).bind stamp).any fun i => decide (i ≤ n) := by
    simp [hn.1, hn.2]
  rw [← hsub.eq_of_length heq] at hmem
  simp only [List.mem_filter, hn.2, Option.any_some, decide_eq_true_eq] at hmem
  omega

theorem placeOf_lt_iff (hm : a.HoldsStamp stamp j m) (hn : a.HoldsStamp stamp k n) :
    a.placeOf stamp m < a.placeOf stamp n ↔ m < n := by
  refine ⟨fun h => Nat.lt_of_not_le fun hle => ?_, placeOf_lt hn⟩
  rcases Nat.eq_or_lt_of_le hle with rfl | hlt
  · exact Nat.lt_irrefl _ h
  · exact Nat.lt_asymm h (placeOf_lt hm hlt)

/-! ### A new stamp given (R84) -/

/-- What the giving of a new stamp makes of a stamp held, where the counter of its kind stands at `counter`. -/
def Arbiter.stampAfter (stamp : Claim → Option Nat) (counter : Nat) (a : Arbiter) (n : Nat) : Nat :=
  if counter = 65535 then a.placeOf stamp n else n

/-- What the counter of a kind stands at just before the new stamp is given. -/
def Arbiter.counterBefore (stamp : Claim → Option Nat) (counter : Nat) (a : Arbiter) : Nat :=
  if counter = 65535 then a.countOf stamp else counter

/-- The claim with its arrival stamp renumbered as the giving of a new one leaves it. -/
def Claim.withArrivalAfter (a : Arbiter) (c : Claim) : Claim :=
  { c with arrival := a.stampAfter (fun c => some c.arrival) a.arrivalCounter c.arrival }

/-- The claim with its on-air stamp renumbered as the giving of a new one leaves it. -/
def Claim.withStampAfter (a : Arbiter) (c : Claim) : Claim :=
  { c with state := match c.state with
    | .onAir n => .onAir (a.stampAfter Claim.onAirStamp a.onAirCounter n)
    | other => other }

theorem nextArrival_counter :
    a.nextArrival.arrivalCounter = a.counterBefore (fun c => some c.arrival) a.arrivalCounter + 1 := by
  unfold Arbiter.nextArrival Arbiter.counterBefore
  split
  · simp [Arbiter.renumberArrivals, arrivals_eq, length_stampsOf]
  · rfl

theorem nextOnAir_counter : a.nextOnAir.onAirCounter = a.counterBefore Claim.onAirStamp a.onAirCounter + 1 := by
  unfold Arbiter.nextOnAir Arbiter.counterBefore
  split
  · simp [Arbiter.renumberOnAir, onAirStamps_eq, length_stampsOf]
  · rfl

theorem nextArrival_claims (k : Nat) :
    a.nextArrival.claims.get k = (a.claims.get k).map (Claim.withArrivalAfter a) := by
  rcases Nat.lt_or_ge k 16 with hk | hk
  · unfold Arbiter.nextArrival Claim.withArrivalAfter Arbiter.stampAfter
    split
    · simp [Arbiter.renumberArrivals, Tab.get_mapIdx _ _ hk, arrivals_eq, rankOf_stampsOf]
    · simp
  · rw [claims_beyond hk, claims_beyond hk]
    rfl

theorem nextOnAir_claims (k : Nat) :
    a.nextOnAir.claims.get k = (a.claims.get k).map (Claim.withStampAfter a) := by
  rcases Nat.lt_or_ge k 16 with hk | hk
  · unfold Arbiter.nextOnAir Claim.withStampAfter
    split
    case isTrue hfull =>
      simp only [Arbiter.renumberOnAir, Tab.get_mapIdx _ _ hk, onAirStamps_eq, rankOf_stampsOf]
      refine Option.map_congr fun c _ => ?_
      rcases hc : c.state <;> simp [Arbiter.stampAfter, hfull]
      all_goals rcases c with ⟨⟩; simp_all
    case isFalse hroom =>
      rcases a.claims.get k with _ | c
      · rfl
      · rcases hc : c.state <;> simp [Arbiter.stampAfter, hroom, hc]
        all_goals rcases c with ⟨⟩; simp_all
  · rw [claims_beyond hk, claims_beyond hk]
    rfl

/-- Beside its claims and its counter the giving of an arrival stamp leaves the arbiter as it was. -/
theorem nextArrival_eq :
    a.nextArrival = { a with
      claims := a.nextArrival.claims
      arrivalCounter := a.counterBefore (fun c => some c.arrival) a.arrivalCounter + 1 } := by
  rw [← nextArrival_counter]
  unfold Arbiter.nextArrival
  split <;> rfl

/-- Beside its claims and its counter the giving of an on-air stamp leaves the arbiter as it was. -/
theorem nextOnAir_eq :
    a.nextOnAir = { a with
      claims := a.nextOnAir.claims
      onAirCounter := a.counterBefore Claim.onAirStamp a.onAirCounter + 1 } := by
  rw [← nextOnAir_counter]
  unfold Arbiter.nextOnAir
  split <;> rfl

/-- The order of the stamps held stays. -/
theorem stampAfter_lt_iff {counter : Nat} (hm : a.HoldsStamp stamp j m) (hn : a.HoldsStamp stamp k n) :
    a.stampAfter stamp counter m < a.stampAfter stamp counter n ↔ m < n := by
  unfold Arbiter.stampAfter
  split
  · exact placeOf_lt_iff hm hn
  · exact Iff.rfl

theorem stampAfter_ne {counter : Nat} (hm : a.HoldsStamp stamp j m) (hn : a.HoldsStamp stamp k n) (h : m ≠ n) :
    a.stampAfter stamp counter m ≠ a.stampAfter stamp counter n := by
  rcases Nat.lt_or_gt_of_ne h with h | h
  · exact Nat.ne_of_lt ((stampAfter_lt_iff hm hn).mpr h)
  · exact Nat.ne_of_gt ((stampAfter_lt_iff hn hm).mpr h)

/-- A stamp held stays within 1 and what the counter stands at. -/
theorem stampAfter_range {counter : Nat} (hm : a.HoldsStamp stamp j m) (hle : 1 ≤ m ∧ m ≤ counter) :
    1 ≤ a.stampAfter stamp counter m ∧ a.stampAfter stamp counter m ≤ a.counterBefore stamp counter := by
  unfold Arbiter.stampAfter Arbiter.counterBefore
  split
  · exact ⟨one_le_placeOf hm, placeOf_le_countOf⟩
  · exact hle

theorem counterBefore_lt {counter : Nat} (h : counter ≤ 65535) : a.counterBefore stamp counter < 65535 := by
  unfold Arbiter.counterBefore
  have := countOf_le (stamp := stamp) (a := a)
  split <;> omega

@[simp] theorem withArrivalAfter_onAirStamp (c : Claim) : (c.withArrivalAfter a).onAirStamp = c.onAirStamp := rfl

theorem withStampAfter_onAirStamp (c : Claim) :
    (c.withStampAfter a).onAirStamp = c.onAirStamp.map (a.stampAfter Claim.onAirStamp a.onAirCounter) := by
  unfold Claim.withStampAfter Claim.onAirStamp
  rcases c.state <;> rfl

theorem holdsStamp_arrival {c : Claim} (h : a.claims.get k = some c) :
    a.HoldsStamp (fun c => some c.arrival) k c.arrival := ⟨slot_lt h, by rw [h]; rfl⟩

/-- The giving of an arrival stamp keeps the laws of the stamps, and leaves every stamp held below the new one. -/
theorem StampLaw.nextArrival (h : StampLaw a) :
    StampLaw a.nextArrival ∧ ∀ k < 16, ∀ c, a.nextArrival.claims.get k = some c →
      c.arrival < a.nextArrival.arrivalCounter := by
  have hcounter := nextArrival_counter (a := a)
  have hbefore := counterBefore_lt (stamp := fun c => some c.arrival) (a := a) h.arrivalCounter
  have honAirCounter : a.nextArrival.onAirCounter = a.onAirCounter := by rw [nextArrival_eq]
  have hclaim : ∀ k c, a.nextArrival.claims.get k = some c →
      ∃ d, a.claims.get k = some d ∧ c = d.withArrivalAfter a := fun k c hc => by
    rw [nextArrival_claims] at hc
    obtain ⟨d, hd, rfl⟩ := Option.map_eq_some_iff.mp hc
    exact ⟨d, hd, rfl⟩
  have hstamp : ∀ k n, (a.nextArrival.claims.get k).bind Claim.onAirStamp = some n →
      (a.claims.get k).bind Claim.onAirStamp = some n := fun k n hn => by
    obtain ⟨c, hc, hcn⟩ := Option.bind_eq_some_iff.mp hn
    obtain ⟨d, hd, rfl⟩ := hclaim k c hc
    exact Option.bind_eq_some_iff.mpr ⟨d, hd, hcn⟩
  have hrange : ∀ k < 16, ∀ c, a.nextArrival.claims.get k = some c →
      1 ≤ c.arrival ∧ c.arrival < a.nextArrival.arrivalCounter := fun k hk c hc => by
    obtain ⟨d, hd, rfl⟩ := hclaim k c hc
    have := stampAfter_range (holdsStamp_arrival hd) (h.arrivals k hk d hd)
    rw [hcounter]
    exact ⟨this.1, Nat.lt_succ_of_le this.2⟩
  refine ⟨⟨by omega, honAirCounter ▸ h.onAirCounter, fun k hk c hc => ⟨(hrange k hk c hc).1, Nat.le_of_lt (hrange k hk c hc).2⟩,
    fun k hk n hn => ?_, fun j hj k hk hne c d hc hd => ?_, fun j hj k hk hne n hn hm => ?_⟩,
    fun k hk c hc => (hrange k hk c hc).2⟩
  · rw [honAirCounter]
    exact h.stamps k hk n (hstamp k n hn)
  · obtain ⟨c, hc', rfl⟩ := hclaim j c hc
    obtain ⟨d, hd', rfl⟩ := hclaim k d hd
    exact stampAfter_ne (holdsStamp_arrival hc') (holdsStamp_arrival hd') (h.arrivalsDiffer j hj k hk hne c d hc' hd')
  · exact h.stampsDiffer j hj k hk hne n (hstamp j n hn) (hstamp k n hm)

/-- The giving of an on-air stamp keeps the laws of the stamps, and leaves every stamp held below the new one. -/
theorem StampLaw.nextOnAir (h : StampLaw a) :
    StampLaw a.nextOnAir ∧ ∀ k < 16, ∀ n, (a.nextOnAir.claims.get k).bind Claim.onAirStamp = some n →
      n < a.nextOnAir.onAirCounter := by
  have hcounter := nextOnAir_counter (a := a)
  have hbefore := counterBefore_lt (stamp := Claim.onAirStamp) (a := a) h.onAirCounter
  have harrivalCounter : a.nextOnAir.arrivalCounter = a.arrivalCounter := by rw [nextOnAir_eq]
  have hclaim : ∀ k c, a.nextOnAir.claims.get k = some c →
      ∃ d, a.claims.get k = some d ∧ c = d.withStampAfter a := fun k c hc => by
    rw [nextOnAir_claims] at hc
    obtain ⟨d, hd, rfl⟩ := Option.map_eq_some_iff.mp hc
    exact ⟨d, hd, rfl⟩
  have hstamp : ∀ k < 16, ∀ n, (a.nextOnAir.claims.get k).bind Claim.onAirStamp = some n →
      ∃ m, a.HoldsStamp Claim.onAirStamp k m ∧ n = a.stampAfter Claim.onAirStamp a.onAirCounter m := by
    intro k hk n hn
    obtain ⟨c, hc, hcn⟩ := Option.bind_eq_some_iff.mp hn
    obtain ⟨d, hd, rfl⟩ := hclaim k c hc
    rw [withStampAfter_onAirStamp] at hcn
    obtain ⟨m, hm, rfl⟩ := Option.map_eq_some_iff.mp hcn
    exact ⟨m, ⟨hk, Option.bind_eq_some_iff.mpr ⟨d, hd, hm⟩⟩, rfl⟩
  have hrange : ∀ k < 16, ∀ n, (a.nextOnAir.claims.get k).bind Claim.onAirStamp = some n →
      1 ≤ n ∧ n < a.nextOnAir.onAirCounter := by
    intro k hk n hn
    obtain ⟨m, hm, rfl⟩ := hstamp k hk n hn
    have := stampAfter_range hm (h.stamps k hk m hm.2)
    rw [hcounter]
    exact ⟨this.1, Nat.lt_succ_of_le this.2⟩
  refine ⟨⟨harrivalCounter ▸ h.arrivalCounter, by omega, fun k hk c hc => ?_,
    fun k hk n hn => ⟨(hrange k hk n hn).1, Nat.le_of_lt (hrange k hk n hn).2⟩, fun j hj k hk hne c d hc hd => ?_,
    fun j hj k hk hne n hn hm => ?_⟩, fun k hk n hn => (hrange k hk n hn).2⟩
  · obtain ⟨d, hd, rfl⟩ := hclaim k c hc
    rw [harrivalCounter]
    exact h.arrivals k hk d hd
  · obtain ⟨c, hc', rfl⟩ := hclaim j c hc
    obtain ⟨d, hd', rfl⟩ := hclaim k d hd
    exact h.arrivalsDiffer j hj k hk hne c d hc' hd'
  · obtain ⟨i, hi, rfl⟩ := hstamp j hj n hn
    obtain ⟨i', hi', heq⟩ := hstamp k hk _ hm
    refine stampAfter_ne hi hi' (fun hii => ?_) heq
    exact h.stampsDiffer j hj k hk hne i hi.2 (hii ▸ hi'.2)

end Sys2Proof.Machine
end

section
/-! SUPPORT. The elementary changes of claims and holders keep the laws: claims changed off the air, placed, put on air and freed
(R83 to R97), and the outcome of a holder choice (R100, R101). -/

namespace Sys2Proof.Machine

variable {x : Reach} {D : Zones} {s t : State}

/-! ### Reading the claims after a change -/

theorem onClaim_claims (f : Claim → Claim) (a : Arbiter) (j k : Nat) :
    (a.onClaim j f).claims.get k = if j = k then (a.claims.get k).map f else a.claims.get k := by
  show (a.claims.set j _).get k = _
  rw [Tab.get_set]
  by_cases hjk : j = k
  · subst hjk
    by_cases hj : j < 16
    · simp [hj]
    · simp [hj, claims_beyond (Nat.not_lt.mp hj)]
  · simp [hjk]

/-- The claims change one by one, none appearing or going. -/
theorem onClaim_claims_map (f : Claim → Claim) (a : Arbiter) (j k : Nat) :
    (a.onClaim j f).claims.get k = (a.claims.get k).map fun c => if j = k then f c else c := by
  rw [onClaim_claims]
  split <;> simp

theorem held_claims (f : Nat → Nat) (h : Holder) (a : Arbiter) (k : Nat) :
    (a.held f h).claims.get k =
      (a.claims.get k).map fun c => { c with zonesHeld := if h = .slot k then f c.zonesHeld else c.zonesHeld } := by
  rcases h with _ | _ | j
  · simp [Arbiter.held]
  · simp [Arbiter.held]
  · rw [Arbiter.held, onClaim_claims_map]
    refine Option.map_congr fun c _ => ?_
    by_cases hjk : j = k <;> simp [hjk]

/-! ### Claims changed off the air -/

/-- What of a claim the laws of claims are read from, but for its count. -/
structure SameClaim (c d : Claim) : Prop where
  channel : d.channel = c.channel
  arrival : d.arrival = c.arrival
  stamp : d.onAirStamp = c.onAirStamp
  air : d.air = c.air

theorem sameClaim_of_offAir {c d : Claim} (hchannel : d.channel = c.channel) (harrival : d.arrival = c.arrival)
    (hc : c.onAirStamp = none) (hd : d.onAirStamp = none) : SameClaim c d :=
  ⟨hchannel, harrival, hd.trans hc.symm, by rw [Claim.air, Claim.air, hc, hd]; rfl⟩

/-- Claims changed one by one in what no law is read from. -/
theorem Kept.mapClaims {claims : Tab (Option Claim) 16} {n : Nat} (f : Nat → Claim → Claim)
    (hget : ∀ k, claims.get k = (s.arbiter.claims.get k).map (f k))
    (hf : ∀ k c, s.arbiter.claims.get k = some c → SameClaim c (f k c) ∧ (f k c).zonesHeld = c.zonesHeld) :
    Kept x D s D (s.onArbiter fun a => { a with claims := claims, confirmCounter := n }) := by
  have hfrom : ∀ k < 16, ∀ c, claims.get k = some c →
      ∃ d, s.arbiter.claims.get k = some d ∧ SameClaim d c ∧ c.zonesHeld = d.zonesHeld := fun k _ c hc => by
    rw [hget] at hc
    obtain ⟨d, hd, rfl⟩ := Option.map_eq_some_iff.mp hc
    exact ⟨d, hd, hf k d hd⟩
  have hair : ∀ k, (claims.get k).bind Claim.air = (s.arbiter.claims.get k).bind Claim.air := fun k => by
    rw [hget]
    rcases hc : s.arbiter.claims.get k with _ | c
    · rfl
    · exact (hf k c hc).1.air
  have hsame : ∀ z, SameCandidates z s (s.onArbiter fun a => { a with claims := claims, confirmCounter := n }) :=
    fun z => ⟨rfl, rfl, rfl, fun k _ => hair k⟩
  refine ⟨{ BlocksKept.refl s with }, ?_, ⟨fun _ => rfl, fun _ => rfl, fun _ => rfl, fun _ => .inr rfl⟩,
    fun _ hz => hz.congr rfl rfl, ?count⟩
  refine ⟨fun hl => hl.of_claims fun k hk c hc => ?_, fun hl => hl.of_claims rfl rfl fun k hk c hc => ?_, fun hl z hz hD => (hl z hz hD).congr rfl Iff.rfl (hsame z).winner, fun _ hl => ?_⟩
  · obtain ⟨d, hd, hdc, -⟩ := hfrom k hk c hc
    exact ⟨d, hd, hdc.channel.symm⟩
  · obtain ⟨d, hd, hdc, -⟩ := hfrom k hk c hc
    exact ⟨d, hd, hdc.arrival.symm, hdc.stamp.symm⟩
  · refine ⟨fun z hz => (hl.shape z hz).congr rfl rfl fun k _ c hc => ?_,
      fun z hz hD => (hl.law z hz hD).congr rfl rfl rfl fun k _ c hc => ?_⟩
    · obtain ⟨d, hd, hdc, -⟩ := hfrom k (slot_lt hc) c hc
      exact ⟨d, hd, hdc.channel.symm⟩
    · exact ⟨f k c, by rw [State.onArbiter_arbiter, hget, hc]; rfl, (hf k c hc).1.channel⟩
  case count =>
    refine fun _ _ _ hl => hl.of_claims rfl fun k hk c hc => ?_
    obtain ⟨d, hd, -, hdc⟩ := hfrom k hk c hc
    exact ⟨d, hd, hdc.symm⟩

/-! ### Holders and the claims on air -/

theorem winner_slot {z k : Nat} (h : (winner s z).1 = .slot k) :
    ∃ stamp, candidate s z k = some ((winner s z).2, stamp) := by
  have hwinner := winnerIsBestCandidate s z
  obtain ⟨-, -, hslot, -⟩ := hwinner
  obtain ⟨stamp, ⟨-, c, hc, hstate, hlevel, hselects, heligible⟩, -⟩ := hslot k h
  exact ⟨stamp, candidate_eq_some.mpr ⟨c, hc, hstate, hlevel, hselects, eligible_iff.mpr heligible⟩⟩

theorem winner_plan {z : Nat} (h : (winner s z).1 = .plan) : ∃ kind, s.arbiter.planClaims.get z = some kind := by
  obtain ⟨-, hplan, -⟩ := winnerIsBestCandidate s z
  obtain ⟨kind, hkind, -⟩ := hplan h
  exact ⟨kind, hkind⟩

/-- A holder slot that the law speaks of holds a claim on the air that selects the zone. -/
theorem HolderLaw.onAir {z k : Nat} (h : HolderLaw s z) (hholder : s.arbiter.holders.get z = .slot k) :
    ∃ c stamp, s.arbiter.claims.get k = some c ∧ c.state = .onAir stamp ∧ selects s c.selection z = true := by
  have hfree : s.arbiter.reserved ≠ some z := fun hr => by
    rw [(h.reserved hr).1] at hholder
    cases hholder
  obtain ⟨stamp, hcandidate⟩ := winner_slot ((h.winner hfree).symm.trans hholder)
  obtain ⟨c, hc, hstate, -, hselects, -⟩ := candidate_eq_some.mp hcandidate
  exact ⟨c, stamp, hc, hstate, hselects⟩

/-- No zone is held by a slot whose claim, if any, is off the air. -/
theorem Holders.not_slot {k : Nat} (h : Holders .empty s) (hoff : (s.arbiter.claims.get k).bind Claim.onAirStamp = none)
    {z : Nat} (hz : z < 128) : s.arbiter.holders.get z ≠ .slot k := by
  intro hholder
  obtain ⟨c, stamp, hc, hstate, -⟩ := (holders_empty.mp h z hz).onAir hholder
  rw [hc] at hoff
  simp [Claim.onAirStamp, hstate] at hoff

/-- A claim off the air takes a channel that no other claim has. -/
theorem Kept.setChannel {k channel : Nat} (hoff : (s.arbiter.claims.get k).bind Claim.onAirStamp = none)
    (hfree : ∀ j < 16, j ≠ k → ∀ d, s.arbiter.claims.get j = some d → d.channel ≠ channel) :
    Kept x .empty s .empty (s.onArbiter (Arbiter.onClaim k fun c => { c with channel := channel })) := by
  have hget (j : Nat) := onClaim_claims (fun c => { c with channel := channel }) s.arbiter k j
  have hother : ∀ j, j ≠ k → (s.arbiter.onClaim k fun c => { c with channel := channel }).claims.get j =
      s.arbiter.claims.get j := fun j hj => by rw [hget, if_neg (Ne.symm hj)]
  have hclaim : ∀ j c, (s.arbiter.onClaim k fun c => { c with channel := channel }).claims.get j = some c →
      ∃ d, s.arbiter.claims.get j = some d ∧ c.arrival = d.arrival ∧ c.onAirStamp = d.onAirStamp ∧
        c.zonesHeld = d.zonesHeld ∧ c.channel = if j = k then channel else d.channel := by
    intro j c hc
    rw [hget] at hc
    split at hc
    case isTrue hjk =>
      obtain ⟨d, hd, rfl⟩ := Option.map_eq_some_iff.mp hc
      exact ⟨d, hd, rfl, rfl, rfl, by rw [if_pos hjk.symm]⟩
    case isFalse hjk => exact ⟨c, hc, rfl, rfl, rfl, by rw [if_neg (Ne.symm hjk)]⟩
  have hsame : ∀ z, SameCandidates z s (s.onArbiter (Arbiter.onClaim k fun c => { c with channel := channel })) :=
    fun z => ⟨rfl, rfl, rfl, fun j _ => by
      show ((s.arbiter.onClaim k _).claims.get j).bind Claim.air = _
      rw [hget]
      split
      · rcases s.arbiter.claims.get j with _ | c <;> rfl
      · rfl⟩
  refine ⟨{ BlocksKept.refl s with }, ?_, ⟨fun _ => rfl, fun _ => rfl, fun _ => rfl, fun _ => .inr rfl⟩,
    fun _ hz => hz.congr rfl rfl, ?count⟩
  refine ⟨fun hl i hi j hj hne c d hc hd => ?_, fun hl => hl.of_claims rfl rfl fun j _ c hc => ?_,
    fun hl z hz hD => (hl z hz hD).congr rfl Iff.rfl (hsame z).winner, fun hh hl => ?_⟩
  · obtain ⟨c', hc', -, -, -, hcc⟩ := hclaim i c hc
    obtain ⟨d', hd', -, -, -, hdd⟩ := hclaim j d hd
    rw [hcc, hdd]
    split <;> split
    · omega
    · exact (hfree j hj ‹_› d' hd').symm
    · exact hfree i hi ‹_› c' hc'
    · exact hl i hi j hj hne c' d' hc' hd'
  · obtain ⟨d, hd, harrival, hstamp, -⟩ := hclaim j c hc
    exact ⟨d, hd, harrival.symm, hstamp.symm⟩
  · have hholder {z j : Nat} (hz : z < 128) (h : s.arbiter.holders.get z = .slot j) : j ≠ k := fun hjk =>
      hh.not_slot hoff hz (hjk ▸ h)
    refine ⟨fun z hz => (hl.shape z hz).congr rfl rfl fun j hj c hc => ?_,
      fun z hz hD => (hl.law z hz hD).congr rfl rfl rfl fun j hj c hc => ?_⟩
    · exact ⟨c, (hother j (hholder hz hj)).symm.trans hc, rfl⟩
    · exact ⟨c, (hother j (hholder hz hj)).trans hc, rfl⟩
  case count =>
    refine fun _ _ _ hl => hl.of_claims rfl fun j _ c hc => ?_
    obtain ⟨d, hd, -, -, hcount, -⟩ := hclaim j c hc
    exact ⟨d, hd, hcount.symm⟩

/-! ### A claim placed (R84, R86) -/

theorem placeClaim_claims {k station level channel : Nat} {selection : Selection} (hk : k < 16) (j : Nat) :
    (placeClaim k station level channel selection s).arbiter.claims.get j =
      if k = j then some (newClaim station channel level selection s.arbiter.nextArrival.arrivalCounter)
      else (s.arbiter.claims.get j).map (Claim.withArrivalAfter s.arbiter) := by
  show (s.arbiter.nextArrival.claims.set k _).get j = _
  rw [Tab.get_set, nextArrival_claims]
  by_cases hkj : k = j
  · subst hkj
    simp [hk]
  · simp [hkj]

theorem nextArrival_fields (a : Arbiter) :
    a.nextArrival.planClaims = a.planClaims ∧ a.nextArrival.masks = a.masks ∧ a.nextArrival.holders = a.holders ∧
      a.nextArrival.reserved = a.reserved ∧ a.nextArrival.onAirCounter = a.onAirCounter ∧
      a.nextArrival.confirmCounter = a.confirmCounter := by
  unfold Arbiter.nextArrival
  split <;> exact ⟨rfl, rfl, rfl, rfl, rfl, rfl⟩

theorem nextOnAir_fields (a : Arbiter) :
    a.nextOnAir.planClaims = a.planClaims ∧ a.nextOnAir.masks = a.masks ∧ a.nextOnAir.holders = a.holders ∧
      a.nextOnAir.reserved = a.reserved ∧ a.nextOnAir.arrivalCounter = a.arrivalCounter ∧
      a.nextOnAir.confirmCounter = a.confirmCounter := by
  unfold Arbiter.nextOnAir
  split <;> exact ⟨rfl, rfl, rfl, rfl, rfl, rfl⟩

/-- Beside its claims and the counter of the arrival stamps a placing leaves the arbiter as it was. -/
theorem placeClaim_eq {k station level channel : Nat} {selection : Selection} :
    placeClaim k station level channel selection s =
      s.onArbiter fun a => { a with
        claims := (placeClaim k station level channel selection s).arbiter.claims
        arrivalCounter := a.counterBefore (fun c => some c.arrival) a.arrivalCounter + 1 } := by
  obtain ⟨hplan, hmasks, hholders, hreserved, honAir, hconfirm⟩ := nextArrival_fields s.arbiter
  simp only [placeClaim, State.onArbiter, hplan, hmasks, hholders, hreserved, honAir, hconfirm, nextArrival_counter]

/-- A claim with a channel of its own is placed in a free slot. -/
theorem Kept.placeClaim {k station level channel : Nat} {selection : Selection} (hk : k < 16)
    (hslot : s.arbiter.claims.get k = none)
    (hfree : ∀ j < 16, ∀ d, s.arbiter.claims.get j = some d → d.channel ≠ channel) :
    Kept x .empty s .empty (placeClaim k station level channel selection s) := by
  have hget (j : Nat) := placeClaim_claims (s := s) (station := station) (level := level) (channel := channel)
    (selection := selection) hk j
  generalize hc : newClaim station channel level selection s.arbiter.nextArrival.arrivalCounter = c at hget
  have hcounter := nextArrival_counter (a := s.arbiter)
  have hcase : ∀ j d, (Machine.placeClaim k station level channel selection s).arbiter.claims.get j = some d →
      (j = k ∧ d = c) ∨ (j ≠ k ∧ s.arbiter.nextArrival.claims.get j = some d ∧
        ∃ e, s.arbiter.claims.get j = some e ∧ d = e.withArrivalAfter s.arbiter) := by
    intro j d hd
    rw [hget] at hd
    split at hd
    case isTrue hkj => exact .inl ⟨hkj.symm, (Option.some.inj hd).symm⟩
    case isFalse hkj =>
      obtain ⟨e, he, rfl⟩ := Option.map_eq_some_iff.mp hd
      exact .inr ⟨Ne.symm hkj, by rw [nextArrival_claims, he]; rfl, e, he, rfl⟩
  have hair : ∀ j, ((Machine.placeClaim k station level channel selection s).arbiter.claims.get j).bind Claim.air =
      (s.arbiter.claims.get j).bind Claim.air := by
    intro j
    rw [hget]
    split
    case isTrue hkj =>
      rw [← hkj, hslot, ← hc]
      rfl
    case isFalse => rcases s.arbiter.claims.get j with _ | e <;> rfl
  rw [placeClaim_eq] at hget hcase hair ⊢
  refine ⟨{ BlocksKept.refl s with }, ?_, ⟨fun _ => rfl, fun _ => rfl, fun _ => rfl, fun _ => .inr rfl⟩,
    fun _ hz => hz.congr rfl rfl, ?count⟩
  refine ⟨fun hl i hi j hj hne d e hd he => ?_, fun hl => ?_,
    fun hl z hz hD => (hl z hz hD).congr rfl Iff.rfl
      (SameCandidates.winner ⟨rfl, rfl, rfl, fun j _ => hair j⟩), fun hh hl => ?_⟩
  · rcases hcase i d hd with ⟨rfl, rfl⟩ | ⟨-, -, d', hd', rfl⟩ <;> rcases hcase j e he with ⟨rfl, rfl⟩ | ⟨-, -, e', he', rfl⟩
    · exact absurd rfl hne
    · rw [← hc]
      exact (hfree j hj e' he').symm
    · rw [← hc]
      exact hfree i hi d' hd'
    · exact hl i hi j hj hne d' e' hd' he'
  · obtain ⟨hstamps, hbelow⟩ := hl.nextArrival
    have harrival : c.arrival = s.arbiter.nextArrival.arrivalCounter := by rw [← hc]; rfl
    have honAir : ∀ j n, ((Machine.placeClaim k station level channel selection s).arbiter.claims.get j).bind
        Claim.onAirStamp = some n → (s.arbiter.nextArrival.claims.get j).bind Claim.onAirStamp = some n := by
      intro j n hn
      obtain ⟨d, hd, hdn⟩ := Option.bind_eq_some_iff.mp hn
      rw [placeClaim_eq] at hd
      rcases hcase j d hd with ⟨-, rfl⟩ | ⟨-, hd', -⟩
      · rw [← hc] at hdn
        cases hdn
      · exact Option.bind_eq_some_iff.mpr ⟨d, hd', hdn⟩
    have honAirCounter : s.arbiter.nextArrival.onAirCounter = s.arbiter.onAirCounter := by rw [nextArrival_eq]
    refine ⟨by simpa [← hcounter] using hstamps.arrivalCounter, hl.onAirCounter, fun j hj d hd => ?_, fun j hj n hn => ?_,
      fun i hi j hj hne d e hd he => ?_, fun i hi j hj hne n hn hm => ?_⟩
    · show 1 ≤ d.arrival ∧ d.arrival ≤ s.arbiter.counterBefore _ _ + 1
      rw [← hcounter]
      rcases hcase j d hd with ⟨rfl, rfl⟩ | ⟨-, hd', -⟩
      · rw [harrival]
        exact ⟨by omega, Nat.le_refl _⟩
      · exact hstamps.arrivals j hj d hd'
    · exact honAirCounter ▸ hstamps.stamps j hj n (honAir j n hn)
    · rcases hcase i d hd with ⟨rfl, rfl⟩ | ⟨-, hd', -⟩ <;> rcases hcase j e he with ⟨rfl, rfl⟩ | ⟨-, he', -⟩
      · exact absurd rfl hne
      · rw [harrival]
        exact Nat.ne_of_gt (hbelow j hj e he')
      · rw [harrival]
        exact Nat.ne_of_lt (hbelow i hi d hd')
      · exact hstamps.arrivalsDiffer i hi j hj hne d e hd' he'
    · exact hstamps.stampsDiffer i hi j hj hne n (honAir i n hn) (honAir j n hm)
  · have hholder {z j : Nat} (hz : z < 128) (h : s.arbiter.holders.get z = .slot j) : k ≠ j := fun hkj =>
      hh.not_slot (k := k) (by rw [hslot]; rfl) hz (hkj ▸ h)
    refine ⟨fun z hz => (hl.shape z hz).congr rfl rfl fun j hj d hd => ?_,
      fun z hz hD => (hl.law z hz hD).congr rfl rfl rfl fun j hj d hd => ?_⟩
    · rcases hcase j d hd with ⟨rfl, -⟩ | ⟨-, -, e, he, rfl⟩
      · exact absurd rfl (hholder hz hj)
      · exact ⟨e, he, rfl⟩
    · exact ⟨d.withArrivalAfter s.arbiter, by rw [hget, if_neg (hholder hz hj), hd]; rfl, rfl⟩
  case count =>
    intro _ hh _ hl j hj d hd
    rcases hcase j d hd with ⟨rfl, rfl⟩ | ⟨-, -, e, he, rfl⟩
    · have hzones : zonesOf s.arbiter j = [] := List.filter_eq_nil_iff.mpr fun z hz => by
        have := hh.not_slot (k := j) (by rw [hslot]; rfl) (List.mem_range.mp hz)
        simpa using this
      show d.zonesHeld = (zonesOf s.arbiter j).length
      rw [hzones, ← hc]
      rfl
    · exact hl j hj e he

/-! ### A claim put on the air (R84, R91) -/

/-- The live candidates of a zone with their stamps changed in a way that keeps the order of those held: the winner and its level
stay. -/
theorem winner_of_stamps {z : Nat} (g : Nat → Nat) (hplan : planCandidate t z = planCandidate s z)
    (hlive : ∀ k < 16, candidate t z k = (candidate s z k).map fun a => (a.1, g a.2))
    (horder : ∀ j < 16, ∀ k < 16, ∀ a b, candidate s z j = some a → candidate s z k = some b →
      (g a.2 < g b.2 ↔ a.2 < b.2)) : winner t z = winner s z := by
  have hbeats : ∀ j ∈ List.range 16, ∀ k ∈ List.range 16, ∀ a b, candidate s z j = some a → candidate s z k = some b →
      (beats (a.1, g a.2) (b.1, g b.2) = true ↔ beats a b = true) := by
    intro j hj k hk a b ha hb
    rw [List.mem_range] at hj hk
    rw [beats_iff, beats_iff, horder j hj k hk a b ha hb, horder k hk j hj b a hb ha]
  have hbest : bestLive t z (List.range 16) =
      (bestLive s z (List.range 16)).map fun b => (b.1, b.2.1, g b.2.2) := by
    rcases hb : bestLive s z (List.range 16) with _ | ⟨k, a⟩
    · rw [bestLive_eq_none] at hb
      refine bestLive_eq_none.mpr fun k hk => ?_
      rw [hlive k (List.mem_range.mp hk), hb k hk]
      rfl
    · have best := bestLive_range.mp hb
      have hfrom : ∀ j ∈ List.range 16, ∀ b, candidate t z j = some b →
          ∃ b', candidate s z j = some b' ∧ b = (b'.1, g b'.2) := fun j hj b hjb => by
        rw [hlive j (List.mem_range.mp hj)] at hjb
        obtain ⟨b', hb', rfl⟩ := Option.map_eq_some_iff.mp hjb
        exact ⟨b', hb', rfl⟩
      refine bestLive_range.mpr ⟨best.mem, ?_, fun j hj b hjb => ?_, fun j hj b hjb hlt => ?_⟩
      · rw [hlive k (List.mem_range.mp best.mem), best.candidate]
        rfl
      · obtain ⟨b', hb', rfl⟩ := hfrom j hj b hjb
        rw [hbeats j hj k best.mem b' a hb' best.candidate]
        exact best.unbeaten j hj b' hb'
      · obtain ⟨b', hb', rfl⟩ := hfrom j hj b hjb
        rw [hbeats k best.mem j hj a b' best.candidate hb']
        exact best.later j hj b' hb' hlt
  rw [winner_eq, winner_eq, hplan, hbest]
  rcases planCandidate s z with _ | p <;> rcases bestLive s z (List.range 16) with _ | ⟨k, l, n⟩ <;> rfl

theorem putOnAir_claims (k j : Nat) :
    (putOnAir k s).arbiter.claims.get j =
      (s.arbiter.claims.get j).map fun c =>
        if k = j then { c.withStampAfter s.arbiter with state := .onAir s.arbiter.nextOnAir.onAirCounter }
        else c.withStampAfter s.arbiter := by
  show ((s.arbiter.nextOnAir).onClaim k _).claims.get j = _
  rw [onClaim_claims_map, nextOnAir_claims, Option.map_map]
  rfl

/-- Beside its claims and the counter of the on-air stamps the step on the air leaves the arbiter as it was. -/
theorem putOnAir_eq (k : Nat) :
    putOnAir k s = s.onArbiter fun a => { a with
      claims := (putOnAir k s).arbiter.claims
      onAirCounter := a.counterBefore Claim.onAirStamp a.onAirCounter + 1 } := by
  obtain ⟨hplan, hmasks, hholders, hreserved, harrival, hconfirm⟩ := nextOnAir_fields s.arbiter
  simp only [putOnAir, State.onArbiter, Arbiter.onClaim, hplan, hmasks, hholders, hreserved, harrival, hconfirm,
    nextOnAir_counter]

theorem withStampAfter_of_offAir {a : Arbiter} {c : Claim} (h : c.onAirStamp = none) : c.withStampAfter a = c := by
  unfold Claim.withStampAfter
  unfold Claim.onAirStamp at h
  rcases hstate : c.state with _ | _ | _ | n
  all_goals rw [hstate] at h
  case onAir => cases h
  all_goals rcases c with ⟨⟩; simp_all

theorem withStampAfter_air {a : Arbiter} (c : Claim) :
    (c.withStampAfter a).air = c.air.map fun b => (b.1, b.2.1, a.stampAfter Claim.onAirStamp a.onAirCounter b.2.2) := by
  unfold Claim.air
  rw [withStampAfter_onAirStamp]
  rcases c.onAirStamp with _ | n <;> rfl

/-- A claim off the air goes on it: the choices of the zones it selects are still to be made. -/
theorem Kept.putOnAir {k : Nat} {c : Claim} (hc : s.arbiter.claims.get k = some c) (hoff : c.onAirStamp = none) :
    Kept x D s (D.or fun z => selects s c.selection z = true) (putOnAir k s) := by
  have hget (j : Nat) := putOnAir_claims (s := s) k j
  have hcounter := nextOnAir_counter (a := s.arbiter)
  generalize hg : s.arbiter.stampAfter Claim.onAirStamp s.arbiter.onAirCounter = g at *
  have hcase : ∀ j d, (Machine.putOnAir k s).arbiter.claims.get j = some d →
      ∃ e, s.arbiter.claims.get j = some e ∧ d.channel = e.channel ∧ d.arrival = e.arrival ∧ d.zonesHeld = e.zonesHeld ∧
        ((j = k ∧ d.onAirStamp = some s.arbiter.nextOnAir.onAirCounter) ∨
          (j ≠ k ∧ s.arbiter.nextOnAir.claims.get j = some d)) := by
    intro j d hd
    rw [hget] at hd
    obtain ⟨e, he, rfl⟩ := Option.map_eq_some_iff.mp hd
    refine ⟨e, he, ?_⟩
    by_cases hkj : k = j
    · simp only [if_pos hkj]
      exact ⟨rfl, rfl, rfl, .inl ⟨hkj.symm, rfl⟩⟩
    · simp only [if_neg hkj]
      exact ⟨rfl, rfl, rfl, .inr ⟨Ne.symm hkj, by rw [nextOnAir_claims, he]; rfl⟩⟩
  have hair : ∀ j, j ≠ k → ((Machine.putOnAir k s).arbiter.claims.get j).bind Claim.air =
      ((s.arbiter.claims.get j).bind Claim.air).map fun b => (b.1, b.2.1, g b.2.2) := by
    intro j hj
    rw [hget]
    rcases s.arbiter.claims.get j with _ | e
    · rfl
    · simp only [Option.map_some, if_neg (Ne.symm hj), Option.bind_some, withStampAfter_air, hg]
  have hairk : ((Machine.putOnAir k s).arbiter.claims.get k).bind Claim.air =
      some (c.level, c.selection, s.arbiter.nextOnAir.onAirCounter) := by
    rw [hget, hc]
    simp only [Option.map_some, if_true, Option.bind_some]
    rfl
  rw [putOnAir_eq] at hget hcase hair hairk ⊢
  refine ⟨{ BlocksKept.refl s with }, ?_, ⟨fun _ => rfl, fun _ => rfl, fun _ => rfl, fun _ => .inr rfl⟩,
    fun _ hz => hz.congr rfl rfl, ?count⟩
  refine ⟨fun hl => hl.of_claims fun j _ d hd => ?_, fun hl => ?_, fun hl z hz hE => ?_,
    fun _ hl => ?_⟩
  · obtain ⟨e, he, hchannel, -⟩ := hcase j d hd
    exact ⟨e, he, hchannel.symm⟩
  · obtain ⟨hstamps, hbelow⟩ := hl.nextOnAir
    have harrivalCounter : s.arbiter.nextOnAir.arrivalCounter = s.arbiter.arrivalCounter := by rw [nextOnAir_eq]
    have hstamp : ∀ j n, ((Machine.putOnAir k s).arbiter.claims.get j).bind Claim.onAirStamp = some n →
        (j = k ∧ n = s.arbiter.nextOnAir.onAirCounter) ∨
          (j ≠ k ∧ (s.arbiter.nextOnAir.claims.get j).bind Claim.onAirStamp = some n) := by
      intro j n hn
      obtain ⟨d, hd, hdn⟩ := Option.bind_eq_some_iff.mp hn
      rw [putOnAir_eq] at hd
      obtain ⟨-, -, -, -, -, ⟨hjk, hnew⟩ | ⟨hjk, hold⟩⟩ := hcase j d hd
      · exact .inl ⟨hjk, Option.some.inj (hdn.symm.trans hnew)⟩
      · exact .inr ⟨hjk, Option.bind_eq_some_iff.mpr ⟨d, hold, hdn⟩⟩
    refine ⟨hl.arrivalCounter, by simpa [← hcounter] using hstamps.onAirCounter, fun j hj d hd => ?_, fun j hj n hn => ?_,
      fun i hi j hj hne d e hd he => ?_, fun i hi j hj hne n hn hm => ?_⟩
    · obtain ⟨e, he, -, harrival, -⟩ := hcase j d hd
      rw [harrival]
      exact hl.arrivals j hj e he
    · show 1 ≤ n ∧ n ≤ s.arbiter.counterBefore _ _ + 1
      rw [← hcounter]
      rcases hstamp j n hn with ⟨-, rfl⟩ | ⟨-, hold⟩
      · exact ⟨by omega, Nat.le_refl _⟩
      · exact hstamps.stamps j hj n hold
    · obtain ⟨d', hd', -, hd'', -⟩ := hcase i d hd
      obtain ⟨e', he', -, he'', -⟩ := hcase j e he
      rw [hd'', he'']
      exact hl.arrivalsDiffer i hi j hj hne d' e' hd' he'
    · rcases hstamp i n hn with ⟨rfl, rfl⟩ | ⟨-, hi'⟩ <;> rcases hstamp j _ hm with ⟨rfl, heq⟩ | ⟨-, hj'⟩
      · exact hne rfl
      · exact Nat.lt_irrefl _ (hbelow j hj _ hj')
      · exact Nat.lt_irrefl _ (heq ▸ hbelow i hi _ hi')
      · exact hstamps.stampsDiffer i hi j hj hne n hi' hj'
  · have hselects : selects s c.selection z = false := Bool.eq_false_iff.mpr fun h => hE (.inr h)
    refine (hl z hz fun hD => hE (.inl hD)).congr rfl Iff.rfl (winner_of_stamps g rfl (fun j hj => ?_) ?_)
    · rw [candidate_eq, candidate_eq]
      by_cases hjk : j = k
      · subst hjk
        have hoffk : (s.arbiter.claims.get j).bind Claim.air = none := by
          rw [hc, Option.bind_some, Claim.air, hoff]
          rfl
        rw [hairk, hoffk]
        simp only [Option.bind_some, selects_congr (s := s) (t := s.onArbiter _) rfl, hselects, Bool.false_and]
        rfl
      · rw [hair j hjk]
        rcases (s.arbiter.claims.get j).bind Claim.air with _ | b
        · rfl
        · simp only [Option.map_some, Option.bind_some, selects_congr (s := s) (t := s.onArbiter _) rfl,
            State.onArbiter_arbiter]
          split <;> rfl
    · intro i hi j hj a b ha hb
      have hholds : ∀ i < 16, ∀ a, candidate s z i = some a → s.arbiter.HoldsStamp Claim.onAirStamp i a.2 := by
        intro i hi a ha
        obtain ⟨e, he, hstate, -⟩ := candidate_eq_some.mp ha
        exact ⟨hi, by rw [he, Option.bind_some, Claim.onAirStamp, hstate]⟩
      rw [← hg]
      exact stampAfter_lt_iff (hholds i hi a ha) (hholds j hj b hb)
  · refine ⟨fun z hz => (hl.shape z hz).congr rfl rfl fun j _ d hd => ?_,
      fun z hz hE => (hl.law z hz fun hD => hE (.inl hD)).congr rfl rfl rfl fun j _ d hd => ?_⟩
    · obtain ⟨e, he, hchannel, -⟩ := hcase j d hd
      exact ⟨e, he, hchannel.symm⟩
    · refine ⟨_, by rw [hget, hd]; rfl, ?_⟩
      split <;> rfl
  case count =>
    refine fun _ _ _ hl => hl.of_claims rfl fun j _ d hd => ?_
    obtain ⟨e, he, -, -, hcount, -⟩ := hcase j d hd
    exact ⟨e, he, hcount.symm⟩

/-! ### Slots freed (R96, R97) -/

theorem get_foldl_set_none (ks : List Nat) (claims : Tab (Option Claim) 16) (j : Nat) :
    (ks.foldl (fun c k => c.set k none) claims).get j = if j ∈ ks then none else claims.get j := by
  induction ks generalizing claims with
  | nil => simp
  | cons k ks ih =>
    rw [List.foldl_cons, ih, Tab.get_set]
    by_cases hj : j ∈ ks
    · simp [hj]
    · by_cases hkj : k = j
      · subst hkj
        by_cases hk : k < 16
        · simp [hk]
        · simp [hk, hj, Tab.get_beyond claims (Nat.not_lt.mp hk)]
          rfl
      · simp [hj, hkj, Ne.symm hkj]

/-- The level of the winner, 0 for NONE, once candidates are gone. -/
theorem winner_of_fewer {z : Nat} {gone : Nat → Prop} (hplan : planCandidate t z = planCandidate s z)
    (hgone : ∀ k < 16, gone k → candidate t z k = none)
    (hstay : ∀ k < 16, ¬gone k → candidate t z k = candidate s z k) :
    (winner t z).2 ≤ (winner s z).2 ∧ ((∀ k, (winner s z).1 = .slot k → ¬gone k) → winner t z = winner s z) := by
  classical
  have hfrom : ∀ j < 16, ∀ b, candidate t z j = some b → ¬gone j ∧ candidate s z j = some b := fun j hj b hjb => by
    have hstays : ¬gone j := fun hg => by
      rw [hgone j hj hg] at hjb
      cases hjb
    exact ⟨hstays, (hstay j hj hstays).symm.trans hjb⟩
  have hbest : ∀ k a, bestLive s z (List.range 16) = some (k, a) → ¬gone k →
      bestLive t z (List.range 16) = some (k, a) := by
    intro k a hb hstays
    have best := bestLive_range.mp hb
    refine bestLive_range.mpr ⟨best.mem, ?_, fun j hj b hjb => ?_, fun j hj b hjb => ?_⟩
    · rw [hstay k (List.mem_range.mp best.mem) hstays, best.candidate]
    · exact best.unbeaten j hj b (hfrom j (List.mem_range.mp hj) b hjb).2
    · exact best.later j hj b (hfrom j (List.mem_range.mp hj) b hjb).2
  have hnone : bestLive s z (List.range 16) = none → bestLive t z (List.range 16) = none := fun hb => by
    rw [bestLive_eq_none] at hb ⊢
    intro k hk
    by_cases hg : gone k
    · exact hgone k (List.mem_range.mp hk) hg
    · rw [hstay k (List.mem_range.mp hk) hg, hb k hk]
  have hlevel : ∀ k a, bestLive t z (List.range 16) = some (k, a) →
      ∃ j b, bestLive s z (List.range 16) = some (j, b) ∧ a.1 ≤ b.1 := by
    intro k a hb
    have best := bestLive_range.mp hb
    have hk := (hfrom k (List.mem_range.mp best.mem) a best.candidate).2
    rcases hs : bestLive s z (List.range 16) with _ | ⟨j, b⟩
    · rw [hnone hs] at hb
      cases hb
    · exact ⟨j, b, rfl, isBest_level_le (bestLive_range.mp hs) best.mem hk⟩
  rw [winner_eq, winner_eq, hplan]
  constructor
  · rcases ht : bestLive t z (List.range 16) with _ | ⟨k, a⟩
    · rcases planCandidate s z with _ | p <;> rcases bestLive s z (List.range 16) with _ | ⟨j, b⟩ <;>
        simp only [winnerOf, Nat.zero_le, Nat.le_refl]
      split <;> omega
    · obtain ⟨j, b, hs, hle⟩ := hlevel k a ht
      rw [hs]
      rcases planCandidate s z with _ | p
      · exact hle
      · simp only [winnerOf]
        split <;> split <;> simp only [] <;> omega
  · intro hholder
    rcases hs : bestLive s z (List.range 16) with _ | ⟨k, a⟩
    · rw [hnone hs]
    · by_cases hg : gone k
      · rw [hs] at hholder
        rcases hp : planCandidate s z with _ | p
        · rw [hp] at hholder
          exact absurd hg (hholder k rfl)
        · rw [hp] at hholder
          have hle : ¬p < a.1 := fun hlt => by
            simp only [winnerOf, if_pos hlt] at hholder
            exact hholder k rfl hg
          rcases ht : bestLive t z (List.range 16) with _ | ⟨j, b⟩
          · simp only [winnerOf, if_neg hle]
          · obtain ⟨i, c, hi, hbc⟩ := hlevel j b ht
            obtain ⟨rfl, rfl⟩ := Prod.mk.inj (Option.some.inj (hs.symm.trans hi))
            have hle' : ¬p < b.1 := by omega
            simp only [winnerOf, if_neg hle, if_neg hle']
      · rw [hbest k a hs hg]

/-- Slots freed: the choices of the zones they held are still to be made. -/
theorem Kept.dropSlots {ks : List Nat} {claims : Tab (Option Claim) 16}
    (hget : ∀ j, claims.get j = if j ∈ ks then none else s.arbiter.claims.get j) :
    Kept x D s (D.or fun z => ∃ k ∈ ks, s.arbiter.holders.get z = .slot k)
      (s.onArbiter fun a => { a with claims := claims }) := by
  have hfrom : ∀ j c, claims.get j = some c → j ∉ ks ∧ s.arbiter.claims.get j = some c := by
    intro j c hc
    rw [hget] at hc
    split at hc
    · cases hc
    · exact ⟨‹_›, hc⟩
  refine ⟨{ BlocksKept.refl s with }, ?_, ⟨fun _ => rfl, fun _ => rfl, fun _ => rfl, fun _ => .inr rfl⟩, fun _ hz => hz.congr rfl rfl,
    fun _ _ _ hl => hl.of_claims rfl fun j _ c hc => ⟨c, (hfrom j c hc).2, rfl⟩⟩
  refine ⟨fun hl => hl.of_claims fun j _ c hc => ⟨c, (hfrom j c hc).2, rfl⟩,
    fun hl => hl.of_claims rfl rfl fun j _ c hc => ⟨c, (hfrom j c hc).2, rfl, rfl⟩,
    fun hl z hz hE => ?_, fun _ hl => ⟨fun z hz => (hl.shape z hz).congr rfl rfl fun j _ c hc =>
      ⟨c, (hfrom j c hc).2, rfl⟩, fun z hz hE => (hl.law z hz fun hD => hE (.inl hD)).congr rfl rfl rfl
        fun j hj c hc => ?_⟩⟩
  · have law := hl z hz fun hD => hE (.inl hD)
    have hholder : ∀ k, s.arbiter.holders.get z = .slot k → k ∉ ks := fun k hk hmem => hE (.inr ⟨k, hmem, hk⟩)
    obtain ⟨hlevel, hwinner⟩ := winner_of_fewer (s := s) (t := s.onArbiter fun a => { a with claims := claims }) (z := z)
      (gone := (· ∈ ks)) rfl
      (fun k _ hk => by rw [candidate_eq, State.onArbiter_arbiter, hget, if_pos hk]; rfl)
      (fun k _ hk => candidate_congr rfl rfl (by rw [State.onArbiter_arbiter, hget, if_neg hk]))
    refine ⟨fun hr => ⟨(law.reserved hr).1, Nat.lt_of_le_of_lt hlevel (law.reserved hr).2⟩, fun hr => ?_⟩
    rw [hwinner fun k hk => hholder k ((law.winner hr).trans hk)]
    exact law.winner hr
  · have hnot : j ∉ ks := fun hmem => hE (.inr ⟨j, hmem, hj⟩)
    exact ⟨c, by rw [State.onArbiter_arbiter, hget, if_neg hnot, hc], rfl⟩

end Sys2Proof.Machine
end

section
/-! SUPPORT. The outcome of a holder choice keeps the laws and makes the zone's choice (R100, R101); then the Zone Arbiter's work
from uses of records to events with their test keeps the laws. -/

namespace Sys2Proof.Machine

variable {x : Reach} {D E : Zones} {s t : State} {z : Nat}

/-! ### The count of the zones of a slot (R95) -/

theorem indices_length_insert {n z : Nat} {p q : Nat → Bool} (hz : z < n) (hp : p z = false) (hq : q z = true)
    (hsame : ∀ y < n, y ≠ z → q y = p y) : (indices n q).length = (indices n p).length + 1 := by
  induction n with
  | zero => omega
  | succ n ih =>
    have hrange (r : Nat → Bool) : indices (n + 1) r = indices n r ++ if r n then [n] else [] := by
      simp only [indices, List.range_succ, List.filter_append, List.filter_cons, List.filter_nil]
    rw [hrange, hrange, List.length_append, List.length_append]
    by_cases hzn : z = n
    · have hbelow : indices n q = indices n p :=
        List.filter_congr fun y hy => hsame y (by have := List.mem_range.mp hy; omega) (by
          have := List.mem_range.mp hy; omega)
      rw [hbelow, ← hzn, hp, hq]
      rfl
    · rw [ih (by omega) fun y hy => hsame y (by omega), hsame n (by omega) (Ne.symm hzn)]
      omega

/-- The count of slot `k` once the holder of a zone goes from `old` to `new`. -/
def heldAfter (old new : Holder) (k n : Nat) : Nat :=
  if old = new then n else if new = .slot k then n + 1 else if old = .slot k then n - 1 else n

theorem zonesOf_length_set {a b : Arbiter} {h : Holder} (hz : z < 128)
    (hholders : ∀ y < 128, b.holders.get y = if z = y then h else a.holders.get y) (k : Nat) :
    (zonesOf b k).length = heldAfter (a.holders.get z) h k (zonesOf a k).length := by
  have hb : b.holders.get z = h := by rw [hholders z hz, if_pos rfl]
  have hother : ∀ y < 128, y ≠ z → b.holders.get y = a.holders.get y := fun y hy hne => by
    rw [hholders y hy, if_neg (Ne.symm hne)]
  have hcongr (hk : a.holders.get z = .slot k ↔ h = .slot k) : zonesOf b k = zonesOf a k := by
    unfold zonesOf indices
    refine List.filter_congr fun y hy => ?_
    · by_cases hyz : y = z
      · rw [hyz, hb]
        exact decide_eq_decide.mpr hk.symm
      · rw [hother y (List.mem_range.mp hy) hyz]
  unfold heldAfter
  by_cases hsame : a.holders.get z = h
  · rw [if_pos hsame, hcongr (by rw [hsame])]
  · rw [if_neg hsame]
    by_cases hnew : h = .slot k
    · rw [if_pos hnew]
      refine indices_length_insert hz ?_ ?_ fun y hy hne => by rw [hother y hy hne]
      · exact decide_eq_false fun hold => hsame (hold.trans hnew.symm)
      · exact decide_eq_true (hb.trans hnew)
    · rw [if_neg hnew]
      by_cases hold : a.holders.get z = .slot k
      · rw [if_pos hold]
        have := indices_length_insert (p := fun y => decide (b.holders.get y = .slot k))
          (q := fun y => decide (a.holders.get y = .slot k)) hz (decide_eq_false fun hslot => hnew (hb.symm.trans hslot))
          (decide_eq_true hold) fun y hy hne => by rw [hother y hy hne]
        show (indices 128 _).length = (indices 128 _).length - 1
        omega
      · rw [if_neg hold, hcongr (iff_of_false hold hnew)]

/-! ### The outcome of a choice (R101) -/

/-- What the outcome `h` of a choice on `z` makes of the claims, the holders and the holder records. -/
structure HolderGiven (z : Nat) (h : Holder) (s t : State) : Prop where
  claims : ∀ k, t.arbiter.claims.get k = (s.arbiter.claims.get k).map fun c =>
    { c with zonesHeld := heldAfter (s.arbiter.holders.get z) h k c.zonesHeld }
  holders : ∀ y < 128, t.arbiter.holders.get y = if z = y then h else s.arbiter.holders.get y
  records : ∀ y < 128, y ≠ z → t.crosspoint.records.get y = s.crosspoint.records.get y
  written : z < 128 → s.arbiter.holders.get z ≠ h ∨ h = .plan → t.crosspoint.records.get z = recordOf s z h
  kept : s.arbiter.holders.get z = h → h ≠ .plan → t.crosspoint.records.get z = s.crosspoint.records.get z
  rest : t = { s with
    arbiter := { s.arbiter with claims := t.arbiter.claims, holders := t.arbiter.holders }
    crosspoint := { s.crosspoint with records := t.crosspoint.records }
    mail := t.mail }

theorem writeRecord_records (z : Nat) (h : Holder) (s : State) :
    (writeRecord z h s).crosspoint.records = s.crosspoint.records.set z (recordOf s z h) := rfl

theorem channelOf_congr {a b : Arbiter} {k : Nat}
    (h : (b.claims.get k).map Claim.channel = (a.claims.get k).map Claim.channel) : b.channelOf k = a.channelOf k := by
  unfold Arbiter.channelOf
  rcases ha : a.claims.get k with _ | c <;> rcases hb : b.claims.get k with _ | d <;> rw [ha, hb] at h
  · cases h
  · cases h
  · exact Option.some.inj h

theorem recordOf_congr {z : Nat} (hplan : t.arbiter.planClaims = s.arbiter.planClaims)
    (hchannel : ∀ k, t.arbiter.channelOf k = s.arbiter.channelOf k) (h : Holder) : recordOf t z h = recordOf s z h := by
  rcases h with _ | _ | k
  · rfl
  · rw [recordOf, recordOf, hplan]
  · rw [recordOf, recordOf, hchannel]

/-- The counts of two slots changed: the claims alone differ. -/
theorem Arbiter.held_held (f g : Nat → Nat) (h k : Holder) (a : Arbiter) :
    ∃ claims, (a.held f h).held g k = { a with claims := claims } := by
  cases h <;> cases k <;> exact ⟨_, rfl⟩

theorem giveHolder_given (z : Nat) (h : Holder) (level : Nat) (s : State) :
    HolderGiven z h s (giveHolder z h level s) := by
  unfold giveHolder
  by_cases hsame : s.arbiter.holders.get z = h
  · rw [if_pos hsame]
    have hclaims (k : Nat) : s.arbiter.claims.get k = (s.arbiter.claims.get k).map fun c =>
        { c with zonesHeld := heldAfter (s.arbiter.holders.get z) h k c.zonesHeld } := by
      simp [heldAfter, hsame]
    have hholders : ∀ y < 128, s.arbiter.holders.get y = if z = y then h else s.arbiter.holders.get y := fun y _ => by
      split
      case isTrue hzy => rw [← hzy, hsame]
      case isFalse => rfl
    by_cases hplan : h = .plan
    · rw [if_pos hplan]
      refine ⟨hclaims, hholders, fun y _ hne => Tab.get_set_ne _ _ (Ne.symm hne), fun hz _ => Tab.get_set_self _ _ hz,
        fun _ hno => absurd hplan hno, rfl⟩
    · rw [if_neg hplan]
      exact ⟨hclaims, hholders, fun _ _ _ => rfl, fun _ hor => hor.elim (absurd hsame) (absurd · hplan), fun _ _ => rfl,
        rfl⟩
  · rw [if_neg hsame]
    change HolderGiven z h s ((writeRecord z h (s.onArbiter fun _ =>
      { (s.arbiter.held (· - 1) (s.arbiter.holders.get z)).held (· + 1) h with
        holders := ((s.arbiter.held (· - 1) (s.arbiter.holders.get z)).held (· + 1) h).holders.set z h })).send
          (.report z level))
    generalize hb : (s.arbiter.held (· - 1) (s.arbiter.holders.get z)).held (· + 1) h = b
    have hclaims (k : Nat) : b.claims.get k = (s.arbiter.claims.get k).map fun c =>
        { c with zonesHeld := heldAfter (s.arbiter.holders.get z) h k c.zonesHeld } := by
      rw [← hb, held_claims, held_claims, Option.map_map]
      refine Option.map_congr fun c _ => ?_
      simp only [Function.comp_apply, heldAfter, if_neg hsame]
      congr 1
      by_cases hnew : h = .slot k
      · have hold : s.arbiter.holders.get z ≠ .slot k := fun hold => hsame (hold.trans hnew.symm)
        rw [if_pos hnew, if_pos hnew, if_neg hold]
      · rw [if_neg hnew, if_neg hnew]
    obtain ⟨claims, rfl⟩ : ∃ claims, b = { s.arbiter with claims := claims } := by
      rw [← hb]
      exact Arbiter.held_held ..
    refine ⟨hclaims, fun y hy => ?_, fun y _ hne => Tab.get_set_ne _ _ (Ne.symm hne), fun hz _ => ?_,
      fun heq => absurd heq hsame, rfl⟩
    · show (s.arbiter.holders.set z h).get y = _
      rw [Tab.get_set]
      simp [hy]
    · refine (Tab.get_set_self _ _ hz).trans (recordOf_congr (by rfl) (fun k => channelOf_congr ?_) h)
      show (claims.get k).map _ = _
      rw [hclaims, Option.map_map]
      rfl

/-- The outcome that R100 gives zone `z`: its winner, or NONE under a reservation that no winner of level 3 or more meets. -/
structure IsOutcome (s : State) (z : Nat) (h : Holder) : Prop where
  reserved : s.arbiter.reserved = some z → h = .none ∧ (winner s z).2 < 3
  winner : s.arbiter.reserved ≠ some z → h = (Machine.winner s z).1

theorem HolderGiven.air {h : Holder} (hg : HolderGiven z h s t) (k : Nat) :
    (t.arbiter.claims.get k).bind Claim.air = (s.arbiter.claims.get k).bind Claim.air := by
  rw [hg.claims]
  rcases s.arbiter.claims.get k with _ | c <;> rfl

theorem HolderGiven.sameCandidates {h : Holder} (hg : HolderGiven z h s t) (y : Nat) : SameCandidates y s t := by
  refine ⟨?_, ?_, ?_, fun k _ => hg.air k⟩
  all_goals rw [hg.rest]
  rfl

/-- The outcome of R100 given to a zone makes that zone's choice. -/
theorem Kept.giveHolder {h : Holder} (level : Nat) (hz : x.inRange → z < 128) (hout : IsOutcome s z h) :
    Kept x D s (D.but fun y => y = z) (giveHolder z h level s) := by
  have hg := giveHolder_given z h level s
  have hsame := hg.sameCandidates
  generalize Machine.giveHolder z h level s = t at *
  obtain ⟨hclaims, hholders, hrecords, hwritten, hunwritten, hrest⟩ := hg
  have hreserved : t.arbiter.reserved = s.arbiter.reserved := by rw [hrest]
  have hplanClaims : t.arbiter.planClaims = s.arbiter.planClaims := by rw [hrest]
  have hfrom : ∀ k c, t.arbiter.claims.get k = some c → ∃ d, s.arbiter.claims.get k = some d ∧
      c = { d with zonesHeld := heldAfter (s.arbiter.holders.get z) h k d.zonesHeld } := by
    intro k c hc
    rw [hclaims] at hc
    obtain ⟨d, hd, rfl⟩ := Option.map_eq_some_iff.mp hc
    exact ⟨d, hd, rfl⟩
  have hblocks : BlocksKept s t := by
    rw [hrest]
    exact { BlocksKept.refl s with }
  refine ⟨hblocks, ?_, ⟨fun _ => hplanClaims, fun _ => by rw [hrest], fun _ => by rw [hrest], fun _ => .inr hreserved⟩,
    fun _ hl => hl.congr (by rw [hrest]) hreserved, ?count⟩
  have hother : ∀ y < 128, y ≠ z → t.arbiter.holders.get y = s.arbiter.holders.get y := fun y hy hne => by
    rw [hholders y hy, if_neg (Ne.symm hne)]
  have hself : z < 128 → t.arbiter.holders.get z = h := fun hz => by rw [hholders z hz, if_pos rfl]
  refine ⟨fun hl => hl.of_claims fun k _ c hc => ?_, fun hl => hl.of_claims (by rw [hrest]) (by rw [hrest])
      fun k _ c hc => ?_, fun hl y hy hE => ?_, fun hl hr => ?_⟩
  · obtain ⟨d, hd, rfl⟩ := hfrom k c hc
    exact ⟨d, hd, rfl⟩
  · obtain ⟨d, hd, rfl⟩ := hfrom k c hc
    exact ⟨d, hd, rfl, rfl⟩
  · by_cases hyz : y = z
    · subst hyz
      refine ⟨fun hres => ?_, fun hres => ?_⟩ <;> rw [hreserved] at hres <;> rw [hself hy, (hsame y).winner]
      · exact hout.reserved hres
      · exact hout.winner hres
    · exact (hl y hy fun hD => hE ⟨hD, hyz⟩).congr (hother y hy hyz) (by rw [hreserved]) (hsame y).winner
  · have hslot : ∀ y < 128, y ≠ z → RecordShape t y := fun y hy hne =>
      (hr.shape y hy).congr (hother y hy hne) (hrecords y hy hne) fun k _ c hc => by
        obtain ⟨d, hd, rfl⟩ := hfrom k c hc
        exact ⟨d, hd, rfl⟩
    have hchosen : z < 128 → RecordLaw t z := fun hz => by
      have hholder := hself hz
      by_cases hwrite : s.arbiter.holders.get z ≠ h ∨ h = .plan
      · have hrecord := hwritten hz hwrite
        refine ⟨fun hh => ?_, fun hh => ?_, fun k hh => ?_⟩
        all_goals
          rw [hholder] at hh
          rw [hrecord, hh]
        · rfl
        · have hfree : s.arbiter.reserved ≠ some z := fun hres => by
            rw [(hout.reserved hres).1] at hh
            cases hh
          obtain ⟨kind, hkind⟩ := winner_plan ((hout.winner hfree).symm.trans hh)
          exact ⟨kind, by rw [hplanClaims, hkind], by rw [recordOf, hkind]; rfl⟩
        · have hfree : s.arbiter.reserved ≠ some z := fun hres => by
            rw [(hout.reserved hres).1] at hh
            cases hh
          obtain ⟨stamp, hcandidate⟩ := winner_slot ((hout.winner hfree).symm.trans hh)
          obtain ⟨c, hc, -⟩ := candidate_eq_some.mp hcandidate
          exact ⟨_, by rw [hclaims, hc]; rfl, by rw [recordOf, Arbiter.channelOf, hc]⟩
      · obtain ⟨heq, hno⟩ := not_or.mp hwrite
        have heq := Classical.not_not.mp heq
        have hrecord := hunwritten heq hno
        have shape := hr.shape z hz
        refine ⟨fun hh => ?_, fun hh => absurd (hholder.symm.trans hh) hno, fun k hh => ?_⟩
        · rw [hrecord]
          exact shape.none (heq.trans (hholder.symm.trans hh))
        · have hh : h = .slot k := hholder.symm.trans hh
          have hfree : s.arbiter.reserved ≠ some z := fun hres => by
            rw [(hout.reserved hres).1] at hh
            cases hh
          obtain ⟨stamp, hcandidate⟩ := winner_slot ((hout.winner hfree).symm.trans hh)
          obtain ⟨c, hc, -⟩ := candidate_eq_some.mp hcandidate
          exact ⟨_, by rw [hclaims, hc]; rfl, by rw [hrecord, shape.slot k (heq.trans hh) c hc]⟩
    refine ⟨fun y hy => ?_, fun y hy hE => ?_⟩
    · by_cases hyz : y = z
      · exact hyz ▸ (hchosen (hyz ▸ hy)).shape
      · exact hslot y hy hyz
    · by_cases hyz : y = z
      · exact hyz ▸ hchosen (hyz ▸ hy)
      · refine (hr.law y hy fun hD => hE ⟨hD, hyz⟩).congr (hother y hy hyz) (hrecords y hy hyz) (by rw [hplanClaims])
          fun k _ c hc => ⟨_, (hclaims k).trans (congrArg _ hc), rfl⟩
  case count =>
    intro hx _ _ hl k hk c hc
    obtain ⟨d, hd, rfl⟩ := hfrom k c hc
    rw [zonesOf_length_set (a := s.arbiter) (hz hx) hholders k, ← hl k hk d hd]

/-! ### The holder choice (R100) -/

theorem Kept.decideHolder (hz : x.inRange → z < 128) : Kept x D s (D.but fun y => y = z) (decideHolder z s) := by
  unfold Machine.decideHolder
  dsimp only
  by_cases hres : s.arbiter.reserved = some z
  · rw [if_pos hres]
    by_cases hlevel : 3 ≤ (winner s z).2
    · rw [if_pos hlevel]
      have hfree : Kept x D s (D.or fun y => s.arbiter.reserved = some y ∨ none = some y)
          (s.onArbiter fun a => { a with reserved := none }) := .setReserved (.inl rfl) fun _ _ h => nomatch h
      have hwinner : winner (s.onArbiter fun a => { a with reserved := none }) z = winner s z :=
        SameCandidates.winner ⟨rfl, rfl, rfl, fun _ _ => rfl⟩
      have hgiven := hfree.trans (.giveHolder (h := (winner s z).1) (winner s z).2 hz ⟨nofun, fun _ => by rw [hwinner]⟩)
      refine (hgiven.trans (.send (.abort z))).weaken ?_
      rintro y - ⟨hD | hy | hy, hne⟩
      · exact ⟨hD, hne⟩
      · exact absurd (Option.some.inj (hy.symm.trans hres)) hne
      · cases hy
    · rw [if_neg hlevel]
      exact .giveHolder 0 hz ⟨fun _ => ⟨rfl, Nat.lt_of_not_le hlevel⟩, fun hno => absurd hres hno⟩
  · rw [if_neg hres]
    exact .giveHolder _ hz ⟨fun h => absurd h hres, fun _ => rfl⟩

end Sys2Proof.Machine
end

section
/-! SUPPORT. The requests to the Fault Unit, the uses of entries and the holder choices and tests of an event keep the laws (R6, R7,
R88, R99, R170 to R173). -/

namespace Sys2Proof.Machine

variable {x : Reach} {D : Zones} {s t : State} {u : FaultUnit} {z k : Nat}

/-! ### The Fault Unit (R169 to R173) -/

theorem FaultUnitLaw.take (n : Notice) (h : FaultUnitLaw u) : FaultUnitLaw (u.take n) := by
  unfold FaultUnit.take
  split
  · exact h
  · next henabled =>
    split
    · next hroom =>
      exact ⟨h.listSize, h.noTwoAlike, h.overflow, by simp [FaultUnit.enter]; omega, fun _ => by simp [FaultUnit.enter],
        fun hno => absurd hno henabled⟩
    · next hfull =>
      refine ⟨h.listSize, h.noTwoAlike, h.overflow, h.queueSize, fun _ hnil => ?_, h.disabled⟩
      simp only [] at hnil
      rw [hnil] at hfull
      exact hfull (by decide)

theorem FaultUnitLaw.add (f : FaultId) (seconds : Nat) (h : FaultUnitLaw u) : FaultUnitLaw (u.add f seconds) := by
  unfold FaultUnit.add
  split
  · exact h
  · next hnew =>
    split
    · next hroom =>
      refine FaultUnitLaw.take _ ⟨by simp; omega, ?_, fun _ => by simp, h.queueSize, h.overrun, h.disabled⟩
      rw [List.map_append, List.nodup_append]
      refine ⟨h.noTwoAlike, by simp, fun g hg f' hf' heq => hnew (FaultUnit.listed_iff.mpr ?_)⟩
      obtain ⟨e, he, rfl⟩ := List.mem_map.mp hg
      exact ⟨e, he, by simpa using heq.trans (List.mem_singleton.mp hf')⟩
    · next hfull =>
      refine ⟨h.listSize, h.noTwoAlike, fun _ hnil => ?_, h.queueSize, h.overrun, h.disabled⟩
      simp only [] at hnil
      rw [hnil] at hfull
      exact hfull (by decide)

theorem FaultUnitLaw.withList {l : List FaultEntry} (hl : l.Sublist u.list) (h : FaultUnitLaw u) :
    FaultUnitLaw (u.withList l) where
  listSize := Nat.le_trans hl.length_le h.listSize
  noTwoAlike := h.noTwoAlike.sublist (hl.map _)
  overflow ho hnil := by
    simp only [FaultUnit.withList] at ho hnil
    simp [hnil] at ho
  queueSize := h.queueSize
  overrun := h.overrun
  disabled := h.disabled

theorem FaultUnitLaw.remove (f : FaultId) (seconds : Nat) (h : FaultUnitLaw u) : FaultUnitLaw (u.remove f seconds) := by
  unfold FaultUnit.remove
  split
  · exact (h.withList List.filter_sublist).take _
  · exact h

theorem FaultUnitLaw.removeTableCorrupt (seconds : Nat) (h : FaultUnitLaw u) :
    FaultUnitLaw (u.removeTableCorrupt seconds) := by
  unfold FaultUnit.removeTableCorrupt
  dsimp only
  split
  · exact h
  · generalize u.list.filter (fun e => isTableCorrupt e.fault) = gone
    have hkept : FaultUnitLaw (u.withList (u.list.filter fun e => !isTableCorrupt e.fault)) :=
      h.withList List.filter_sublist
    generalize u.withList _ = v at hkept
    induction gone generalizing v with
    | nil => exact hkept
    | cons e gone ih => exact ih _ (hkept.take _)

theorem Kept.notify (n : Notice) : Kept x D s D (notify n s) := .onFaultUnit (.take n)

theorem Kept.addFault (f : FaultId) : Kept x D s D (addFault f s) := .onFaultUnit (.add f _)

theorem Kept.removeFault (f : FaultId) : Kept x D s D (removeFault f s) := .onFaultUnit (.remove f _)

/-! ### The use of entries (R6, R7) -/

@[simp] theorem useEntry_arbiter (r : EntryRef) (s : State) : (useEntry r s).1.arbiter = s.arbiter := by
  unfold useEntry
  split
  · rfl
  · split <;> rfl

@[simp] theorem headerUsed_arbiter (s : State) : (headerUsed s).arbiter = s.arbiter := useEntry_arbiter _ s

/-- A use of an entry touches the choice of no zone but the one whose record it finds damaged. -/
theorem Kept.useEntry (r : EntryRef) :
    Kept x D s (D.or fun z => r = zoneRef z ∧ ¬Sound s r ∧ s.marked r = false) (useEntry r s).1 := by
  rcases hm : s.marked r
  · rcases hp : s.passes r
    · rw [useEntry_of_failing hm hp]
      refine ((Kept.setMark r).trans (.addFault _)).weaken ?_
      rintro z - (hD | rfl)
      · exact .inl hD
      · exact .inr ⟨rfl, fun hsound => Bool.false_ne_true (hp.symm.trans hsound.2), rfl⟩
    · rw [useEntry_sound ⟨hm, hp⟩]
      exact (Kept.refl x D s).weaken fun _ _ h => .inl h
  · rw [useEntry_of_marked hm]
    exact (Kept.addFault _).weaken fun _ _ h => .inl h

/-- A use of an entry of another table than the Zone Records touches the choice of no zone. -/
theorem Kept.useOther {r : EntryRef} (h : r.table ≠ .zoneRecord) : Kept x D s D (Machine.useEntry r s).1 :=
  (Kept.useEntry r).weaken fun _ _ hz => hz.elim id fun hz => absurd (congrArg EntryRef.table hz.1) h

theorem Kept.readTiming (f : Header → Nat) : Kept x D s D (readTiming f s).1 := by
  rw [readTiming_value]
  exact .useOther nofun

theorem Kept.zoneDisabledCheck (old z : Nat) : Kept x D s D (zoneDisabledCheck old z s) := by
  unfold Machine.zoneDisabledCheck
  split
  · exact .addFault _
  · split
    · exact .removeFault _
    · exact .refl x D s

/-- Zone `z`'s record is found damaged when it is used. -/
def NewlyMarked (s : State) (z : Nat) : Prop := ¬Sound s (zoneRef z) ∧ s.marked (zoneRef z) = false

theorem touchZone_of_marked (h : s.marked (zoneRef z) = true) :
    touchZone z s = (addFault (.tableCorrupt (zoneRef z)) s, false) := by
  simp [touchZone, useEntry_of_marked h, h]

theorem touchZone_of_newlyMarked (h : NewlyMarked s z) :
    touchZone z s = (zoneMarked z (addFault (.tableCorrupt (zoneRef z)) (s.setMark (zoneRef z))), false) := by
  obtain ⟨hsound, hm⟩ := h
  have hp : s.passes (zoneRef z) = false := Bool.eq_false_iff.mpr fun hp => hsound ⟨hm, hp⟩
  simp [touchZone, useEntry_of_failing hm hp, hm]

theorem Kept.zoneMarked : Kept x D s (D.or fun y => y = z) (zoneMarked z s) := by
  have hmasks : Kept x D s (D.or fun y => y = z) (setMaskOf z 0 s) := (Kept.setMasks (s.arbiter.masks.set z 0)).weaken fun y _ hy =>
    hy.imp_right fun hne => Classical.not_not.mp fun hyz => hne (Tab.get_set_ne _ _ (Ne.symm hyz))
  exact (hmasks.trans (.onCrosspoint)).trans (.zoneDisabledCheck _ _)

/-- The zone whose record is found damaged is to be chosen anew. -/
theorem Kept.touchZone : Kept x D s (D.or fun y => y = z ∧ NewlyMarked s z) (touchZone z s).1 := by
  by_cases hnew : NewlyMarked s z
  · rw [touchZone_of_newlyMarked hnew]
    refine (((Kept.setMark (zoneRef z)).trans (.addFault _)).trans .zoneMarked).weaken ?_
    rintro y - ((hD | hy) | hy)
    · exact .inl hD
    · exact .inr ⟨(zoneRef_injective hy).symm, hnew⟩
    · exact .inr ⟨hy, hnew⟩
  · rcases hm : s.marked (zoneRef z)
    · rw [touchZone_sound (Classical.not_not.mp fun hsound => hnew ⟨hsound, hm⟩)]
      exact (Kept.refl x D s).weaken fun _ _ h => .inl h
    · rw [touchZone_of_marked hm]
      exact (Kept.addFault _).weaken fun _ _ h => .inl h

theorem touchZones_cons (z : Nat) (zs : List Nat) (s : State) :
    (touchZones (z :: zs) s).1 = (touchZones zs (touchZone z s).1).1 ∧
      ∀ y, y ∈ (touchZones (z :: zs) s).2 ↔ (y = z ∧ NewlyMarked s z) ∨ y ∈ (touchZones zs (touchZone z s).1).2 := by
  refine ⟨rfl, fun y => ?_⟩
  have hnew : NewlyMarked s z ↔ (touchZone z s).2 = false ∧ s.marked (zoneRef z) = false :=
    and_congr_left fun _ => ⟨touchZone_unsound, fun h hsound => by simp [touchZone_sound hsound] at h⟩
  rw [hnew]
  simp only [touchZones]
  split
  case isTrue h => simp [h]
  case isFalse h => simp [h]

theorem touchZones_subset (zs : List Nat) (s : State) : (touchZones zs s).2 ⊆ zs := by
  induction zs generalizing s with
  | nil => simp [touchZones]
  | cons z zs ih =>
    intro y hy
    rcases ((touchZones_cons z zs s).2 y).mp hy with ⟨rfl, -⟩ | hy
    · exact List.mem_cons_self
    · exact List.mem_cons_of_mem _ (ih _ hy)

/-- The zones whose records are found damaged are to be chosen anew. -/
theorem Kept.touchZones (zs : List Nat) :
    Kept x D s (D.or fun z => z ∈ (touchZones zs s).2) (touchZones zs s).1 := by
  induction zs generalizing D s with
  | nil => exact (Kept.refl x D s).weaken fun _ _ h => .inl h
  | cons z zs ih =>
    obtain ⟨hstate, hfresh⟩ := touchZones_cons z zs s
    rw [hstate]
    refine (Kept.touchZone.trans ih).weaken ?_
    rintro y - ((hD | hy) | hy)
    · exact .inl hD
    · exact .inr ((hfresh y).mpr (.inl hy))
    · exact .inr ((hfresh y).mpr (.inr hy))

/-! ### Holder choices (R99, R100) -/

theorem Kept.chooseHolder (hz : x.inRange → z < 128) : Kept x D s (D.but fun y => y = z) (chooseHolder z s) := by
  unfold Machine.chooseHolder
  split
  · refine (Kept.touchZone.trans (.decideHolder hz)).weaken ?_
    rintro y - ⟨hD | ⟨rfl, -⟩, hne⟩
    · exact ⟨hD, hne⟩
    · exact absurd rfl hne
  · exact .decideHolder hz

theorem Kept.chooseHolders {zs : List Nat} (hzs : x.inRange → ∀ z ∈ zs, z < 128) :
    Kept x D s (D.but fun z => z ∈ zs) (chooseHolders zs s) := by
  induction zs generalizing D s with
  | nil => exact (Kept.refl x D s).weaken fun _ _ h => ⟨h, List.not_mem_nil⟩
  | cons z zs ih =>
    refine (Kept.trans (.chooseHolder fun hx => hzs hx z List.mem_cons_self)
      (ih fun hx y hy => hzs hx y (List.mem_cons_of_mem _ hy))).weaken ?_
    rintro y - ⟨⟨hD, hne⟩, hy⟩
    exact ⟨hD, fun hmem => (List.mem_cons.mp hmem).elim hne hy⟩

theorem indices_lt {n : Nat} {p : Nat → Bool} : ∀ z ∈ indices n p, z < n := fun _ hz =>
  List.mem_range.mp (List.mem_filter.mp hz).1

theorem mem_indices {n : Nat} {p : Nat → Bool} : z ∈ indices n p ↔ z < n ∧ p z = true := by
  simp [indices]

/-! ### The confirm exchange and the tests (R88, R89, R154) -/

/-- A queue of requests with distinct slots below 16 holds 16 at most. -/
theorem confirms_length_le {l : List ConfirmRequest} (hnodup : (l.map ConfirmRequest.slot).Nodup)
    (hslots : ∀ c ∈ l, c.slot < 16) : l.length ≤ 16 := by
  have hsub : l.map ConfirmRequest.slot ⊆ List.range 16 := fun k hk => by
    obtain ⟨c, hc, rfl⟩ := List.mem_map.mp hk
    exact List.mem_range.mpr (hslots c hc)
  simpa using length_le_of_subset hnodup hsub

theorem Kept.queueConfirm {c : ConfirmRequest} (hslot : c.slot < 16) : Kept x D s D (queueConfirm c s) := by
  refine .onRouter (fun h => ?_) (Nat.le_refl _)
  have hslots : ∀ d ∈ s.router.confirms.filter (fun d => decide (d.slot ≠ c.slot)) ++ [c], d.slot < 16 := by
    intro d hd
    rcases List.mem_append.mp hd with hd | hd
    · exact h.slots d ((List.mem_filter.mp hd).1)
    · rw [List.mem_singleton.mp hd]
      exact hslot
  have hnodup : ((s.router.confirms.filter (fun d => decide (d.slot ≠ c.slot)) ++ [c]).map ConfirmRequest.slot).Nodup := by
    rw [List.map_append, List.nodup_append]
    refine ⟨h.oneEach.sublist (List.filter_sublist.map _), by simp, fun k hk j hj heq => ?_⟩
    obtain ⟨d, hd, rfl⟩ := List.mem_map.mp hk
    have hne : d.slot ≠ c.slot := by simpa using (List.mem_filter.mp hd).2
    exact hne (by simpa using heq.trans (List.mem_singleton.mp hj))
  exact { h with
    confirms := confirms_length_le hnodup hslots
    oneEach := hnodup
    slots := hslots }

/-- The claim in slot `k`, if any, is not on the air. -/
def OffAir (s : State) (k : Nat) : Prop := (s.arbiter.claims.get k).bind Claim.onAirStamp = none

/-- A claim off the air changes its state and counts its waits. -/
theorem Kept.changeOffAir {f : Claim → Claim} {n : Nat} (hoff : OffAir s k)
    (hf : ∀ c, (f c).channel = c.channel ∧ (f c).arrival = c.arrival ∧ (f c).zonesHeld = c.zonesHeld ∧
      (f c).onAirStamp = none) :
    Kept x D s D (s.onArbiter fun a => { a.onClaim k f with confirmCounter := n }) := by
  refine .mapClaims (fun j d => if k = j then f d else d) (fun j => onClaim_claims_map f _ k j) fun j d hd => ?_
  split
  · next hkj =>
    subst hkj
    obtain ⟨hchannel, harrival, hcount, hstamp⟩ := hf d
    rw [OffAir, hd] at hoff
    exact ⟨sameClaim_of_offAir hchannel harrival hoff hstamp, hcount⟩
  · exact ⟨⟨rfl, rfl, rfl, rfl⟩, rfl⟩

theorem Kept.headerUsed : Kept x D s D (headerUsed s) := .useOther nofun

theorem headerUsed_offAir (hoff : OffAir s k) : OffAir (headerUsed s) k := by
  rwa [OffAir, headerUsed_arbiter]

theorem Kept.enterConfirming (hoff : OffAir s k) : Kept x D s D (enterConfirming k s) := by
  unfold Machine.enterConfirming
  rcases hc : s.arbiter.claims.get k with _ | c
  · exact .refl x D s
  · rw [readTiming_value]
    refine Kept.headerUsed.trans (Kept.trans ?_ (.queueConfirm (slot_lt hc)))
    exact .changeOffAir (headerUsed_offAir hoff) fun _ => ⟨rfl, rfl, rfl, rfl⟩

theorem wouldWin_pending (h : wouldWin s k = true) : ∃ c, s.arbiter.claims.get k = some c ∧ c.state = .pending := by
  unfold wouldWin at h
  rcases hc : s.arbiter.claims.get k with _ | c
  · simp [hc] at h
  · rw [hc] at h
    exact ⟨c, rfl, of_decide_eq_true (Bool.and_eq_true_iff.mp h).1⟩

theorem enterConfirming_offAir (hoff : OffAir s j) (k : Nat) : OffAir (enterConfirming k s) j := by
  unfold Machine.enterConfirming
  rcases hc : s.arbiter.claims.get k with _ | c
  · exact hoff
  · rw [readTiming_value]
    show (((headerUsed s).arbiter.onClaim k _).claims.get j).bind _ = none
    rw [onClaim_claims_map, headerUsed_arbiter]
    unfold OffAir at hoff
    rcases hd : s.arbiter.claims.get j with _ | d
    · rfl
    · rw [hd] at hoff
      by_cases hkj : k = j
      · simp [hkj, Claim.onAirStamp]
      · simpa [hkj] using hoff

theorem Kept.confirmWinners (ks : List Nat) : Kept x D s D (confirmWinners ks s) := by
  have hstays : ∀ t : State, (∀ k, OffAir s k → OffAir t k) →
      Kept x D t D (ks.foldl (fun t k => if wouldWin s k then Machine.enterConfirming k t else t) t) := by
    induction ks with
    | nil => exact fun t _ => .refl x D t
    | cons k ks ih =>
      intro t ht
      rw [List.foldl_cons]
      split
      · next hwins =>
        obtain ⟨c, hc, hpending⟩ := wouldWin_pending hwins
        have hoff : OffAir s k := by rw [OffAir, hc, Option.bind_some, Claim.onAirStamp, hpending]
        exact (Kept.enterConfirming (ht k hoff)).trans (ih _ fun j hj => enterConfirming_offAir (ht j hj) k)
      · exact ih t ht
  exact hstays s fun _ => id

/-- A test makes the choices of the zones whose records its readings find damaged. -/
theorem Kept.wouldWinTest (ks : List Nat) : Kept x D s D (wouldWinTest ks s) := by
  have hchosen {zs : List Nat} {u : State} (hzs : ∀ z ∈ zs, z < 128) :
      Kept x D u D (Machine.chooseHolders (Machine.touchZones zs u).2 (Machine.touchZones zs u).1) :=
    ((Kept.touchZones zs).trans (.chooseHolders fun _ z hz => hzs z (touchZones_subset zs u hz))).weaken
      fun _ _ hy => hy.1.elim id fun hfresh => absurd hfresh hy.2
  have hreads (ks : List Nat) (u : State) : ∀ z ∈ testReads u ks, z < 128 := indices_lt
  unfold Machine.wouldWinTest
  have hfirst := hchosen (u := s) (hreads ks s)
  rcases htouched : Machine.touchZones (testReads s ks) s with ⟨t, _ | ⟨z, fresh⟩⟩
  · rw [htouched] at hfirst
    exact hfirst.trans (.confirmWinners ks)
  · rw [htouched] at hfirst
    exact ((hfirst.trans (.confirmWinners ks)).trans (hchosen (hreads _ _))).trans (.confirmWinners _)

theorem Kept.testPending : Kept x D s D (testPending s) := .wouldWinTest _

theorem Kept.choiceEvent {zs : List Nat} (hzs : x.inRange → ∀ z ∈ zs, z < 128) :
    Kept x D s (D.but fun z => z ∈ zs) (choiceEvent zs s) := by
  unfold Machine.choiceEvent
  split
  · next hnil =>
    subst hnil
    exact (Kept.refl x D s).weaken fun _ _ h => ⟨h, List.not_mem_nil⟩
  · exact (Kept.chooseHolders hzs).trans .testPending

theorem useZone_of_marked (h : s.marked (zoneRef z) = true) :
    useZone z s = (addFault (.tableCorrupt (zoneRef z)) s, false) := by
  simp [useZone, touchZone_of_marked h, h]

theorem useZone_of_newlyMarked (h : NewlyMarked s z) :
    useZone z s = (choiceEvent [z] (touchZone z s).1, false) := by
  rw [useZone, touchZone_of_newlyMarked h]
  simp [h.2]

theorem Kept.useZone (hz : x.inRange → z < 128) : Kept x D s D (useZone z s).1 := by
  by_cases hnew : NewlyMarked s z
  · rw [useZone_of_newlyMarked hnew]
    dsimp only
    have hchosen := (Kept.touchZone (x := x) (D := D) (s := s) (z := z)).trans
      (.choiceEvent (zs := [z]) fun hx y hy => List.mem_singleton.mp hy ▸ hz hx)
    refine hchosen.weaken ?_
    rintro y - ⟨hD | ⟨rfl, -⟩, hne⟩
    · exact hD
    · exact absurd List.mem_cons_self hne
  · rcases hm : s.marked (zoneRef z)
    · rw [useZone_sound (Classical.not_not.mp fun hsound => hnew ⟨hsound, hm⟩)]
      exact .refl x D s
    · rw [useZone_of_marked hm]
      exact .addFault _

theorem Kept.useAny {r : EntryRef} (hr : x.inRange → r.table = .zoneRecord → r.index < 128) :
    Kept x D s D (useAny r s).1 := by
  unfold Machine.useAny
  split
  · next htable => exact .useZone fun hx => hr hx htable
  · next htable => exact .useOther htable

end Sys2Proof.Machine
end

section
/-! SUPPORT. The events of the Zone Arbiter keep the laws: claims that go on air, end and wait, masks, plan claims, base values
and the supervision reservation (R80 to R103). -/

namespace Sys2Proof.Machine

variable {x : Reach} {D : Zones} {s t : State} {z k : Nat}

/-! ### Going on air (R87, R91) -/

@[simp] theorem zoneDisabledCheck_tables (old z : Nat) (s : State) : (zoneDisabledCheck old z s).tables = s.tables := by
  unfold zoneDisabledCheck
  split
  · rfl
  · split <;> rfl

@[simp] theorem zoneMarked_tables (z : Nat) (s : State) : (zoneMarked z s).tables = s.tables :=
  zoneDisabledCheck_tables ..

/-- A use of a zone's record marks no entry but a damaged one of its own. -/
theorem touchZone_marked {q : EntryRef} (h : ¬(q = zoneRef z ∧ NewlyMarked s z)) :
    (touchZone z s).1.marked q = s.marked q := by
  by_cases hnew : NewlyMarked s z
  · rw [touchZone_of_newlyMarked hnew]
    have hmarked : (zoneMarked z (addFault (.tableCorrupt (zoneRef z)) (s.setMark (zoneRef z)))).marked q =
        (s.setMark (zoneRef z)).marked q := by
      unfold State.marked
      rw [zoneMarked_tables]
      rfl
    have hne : q ≠ zoneRef z := fun hq => h ⟨hq, hnew⟩
    simp [hmarked, marked_setMark, hne]
  · rcases hm : s.marked (zoneRef z)
    · rw [touchZone_sound (Classical.not_not.mp fun hsound => hnew ⟨hsound, hm⟩)]
    · rw [touchZone_of_marked hm]
      rfl

/-- Uses of zones' records leave the marks of the zones they do not find damaged. -/
theorem touchZones_marked (zs : List Nat) {y : Nat} (h : y ∉ (touchZones zs s).2) :
    (touchZones zs s).1.marked (zoneRef y) = s.marked (zoneRef y) := by
  induction zs generalizing s with
  | nil => rfl
  | cons z zs ih =>
    obtain ⟨hstate, hfresh⟩ := touchZones_cons z zs s
    rw [hfresh, not_or] at h
    rw [hstate, ih h.2]
    exact touchZone_marked fun hy => h.1 ⟨zoneRef_injective hy.1, hy.2⟩

theorem touchZones_groupOf (zs : List Nat) {y : Nat} (h : y ∉ (touchZones zs s).2) :
    groupOf (touchZones zs s).1 y = groupOf s y := by
  unfold groupOf
  rw [touchZones_marked zs h, (touchZones_worked zs s).fields]

/-- The choices after a claim has gone on air make those of every zone it selects. -/
theorem Kept.onAirChoices (sel : Selection) :
    Kept x (D.or fun z => selects s sel z = true) s D (onAirChoices sel s) := by
  unfold Machine.onAirChoices
  generalize (if sel.isGroups then List.range 128 else []) = zs
  have htouched := Kept.touchZones (x := x) (D := D.or fun z => selects s sel z = true) (s := s) zs
  have hgroup := @touchZones_groupOf s zs
  rcases htouch : Machine.touchZones zs s with ⟨t, fresh⟩
  rw [htouch] at htouched
  simp only [htouch] at hgroup
  refine (htouched.trans (.choiceEvent fun _ => indices_lt)).weaken ?_
  rintro z hz ⟨(hD | hsel) | hfresh, hno⟩
  · exact hD
  · refine absurd (mem_indices.mpr ⟨hz, ?_⟩) hno
    by_cases hmem : z ∈ fresh
    · simp [hmem]
    · have hsel' : selects t sel z = true := (selects_congr (hgroup hmem) sel).trans hsel
      simp [hsel']
  · exact absurd (mem_indices.mpr ⟨hz, by simpa using .inr hfresh⟩) hno

theorem Kept.enterOnAir (hoff : OffAir s k) : Kept x D s D (enterOnAir k s) := by
  unfold Machine.enterOnAir
  rcases hc : s.arbiter.claims.get k with _ | c
  · exact .refl x D s
  · rw [OffAir, hc] at hoff
    exact Kept.trans (.putOnAir hc hoff) (Kept.onAirChoices (s := Machine.putOnAir k s) c.selection)

/-! ### Claims that end and wait (R93, R96 to R98) -/

theorem Kept.freeSlots (ks : List Nat) : Kept x D s D (freeSlots ks s) := by
  unfold Machine.freeSlots
  dsimp only
  have hfreed : Kept x D s D (Machine.chooseHolders
      (indices 128 fun z => ks.any fun k => decide (s.arbiter.holders.get z = .slot k))
      (s.onArbiter fun a => { a with claims := ks.foldl (fun c k => c.set k none) a.claims })) := by
    refine ((Kept.dropSlots (get_foldl_set_none ks s.arbiter.claims)).trans (.chooseHolders fun _ => indices_lt)).weaken ?_
    rintro z hz ⟨hD | ⟨k, hk, hholder⟩, hno⟩
    · exact hD
    · exact absurd (mem_indices.mpr ⟨hz, List.any_eq_true.mpr ⟨k, hk, decide_eq_true hholder⟩⟩) hno
  split
  · exact hfreed.trans .testPending
  · exact hfreed

theorem Kept.dropClaims (reason : DropReason) (ks : List Nat) : Kept x D s D (dropClaims reason ks s) := by
  refine Kept.trans (.foldl (fun t k => ?_) ks s) (.freeSlots ks)
  split
  · exact .notify _
  · exact .refl x D t

theorem Kept.takeWait (hoff : OffAir s k) (c : Claim) : Kept x D s D (takeWait k c s) := by
  unfold Machine.takeWait
  split
  · exact .dropClaims _ _
  · rw [readTiming_value]
    exact Kept.headerUsed.trans (.changeOffAir (headerUsed_offAir hoff) fun _ => ⟨rfl, rfl, rfl, rfl⟩)

theorem Kept.takeReady (hoff : OffAir s k) (c : Claim) : Kept x D s D (takeReady k c s) := by
  unfold Machine.takeReady
  split
  · exact .enterOnAir hoff
  · exact .takeWait hoff c

theorem channelHeldBeside_eq_false {channel : Nat} (h : channelHeldBeside s k channel = false) :
    ∀ j < 16, j ≠ k → ∀ d, s.arbiter.claims.get j = some d → d.channel ≠ channel := by
  intro j hj hne d hd hchannel
  have hnot := List.any_eq_false.mp h j (List.mem_range.mpr hj)
  simp [hne, hd, hchannel] at hnot

theorem Kept.takeDefault (hoff : OffAir s k) (c : Claim) : Kept x .empty s .empty (takeDefault k c s) := by
  unfold Machine.takeDefault
  have hused : Kept x .empty s .empty (Machine.useEntry (defaultRef (defaultIndex c.level)) s).1 := .useOther nofun
  have harbiter := useEntry_arbiter (defaultRef (defaultIndex c.level)) s
  rcases hentry : Machine.useEntry (defaultRef (defaultIndex c.level)) s with ⟨t, _ | _⟩
  all_goals rw [hentry] at hused harbiter
  · exact hused.trans (.dropClaims _ _)
  · dsimp only at harbiter ⊢
    split
    · exact hused.trans (.dropClaims _ _)
    · next hheld =>
      have hoff' : OffAir t k := by rwa [OffAir, harbiter]
      have hset : Kept x .empty t .empty _ :=
        .setChannel hoff' (channelHeldBeside_eq_false (Bool.eq_false_iff.mpr hheld))
      refine hused.trans (hset.trans (.enterOnAir ?_))
      show ((t.arbiter.onClaim k _).claims.get k).bind _ = none
      unfold OffAir at hoff'
      rw [onClaim_claims_map]
      rcases hd : t.arbiter.claims.get k with _ | d
      · rfl
      · rw [hd] at hoff'
        simpa [Claim.onAirStamp] using hoff'

theorem answeredClaim_offAir {station number : Nat} {c : Claim} (h : answeredClaim s station k number = some c) :
    OffAir s k := by
  unfold answeredClaim at h
  unfold OffAir
  rcases hd : s.arbiter.claims.get k with _ | d
  · rfl
  · rw [hd] at h
    rcases hstate : d.state <;> simp_all [Claim.onAirStamp]

/-- An answer keeps the laws where its work on a claim off the air does. -/
theorem Kept.answer {f : Nat → Claim → State → State} (hf : ∀ k c, OffAir s k → Kept x D s D (f k c s))
    (station slot number : Nat) : Kept x D s D (answer f station slot number s) := by
  unfold Machine.answer
  split
  · next hc => exact hf _ _ (answeredClaim_offAir hc)
  · exact .refl x D s

theorem Kept.release (station slot : Nat) : Kept x D s D (release station slot s) := by
  unfold Machine.release
  split
  · split
    · exact .freeSlots _
    · exact .refl x D s
  · exact .refl x D s

/-- Several claims off the air enter CONFIRMING. -/
theorem Kept.enterConfirmings {ks : List Nat} (h : ∀ k ∈ ks, OffAir s k) :
    Kept x D s D (ks.foldl (fun t k => Machine.enterConfirming k t) s) := by
  induction ks generalizing s with
  | nil => exact .refl x D s
  | cons k ks ih =>
    exact (Kept.enterConfirming (h k List.mem_cons_self)).trans
      (ih fun j hj => enterConfirming_offAir (h j (List.mem_cons_of_mem _ hj)) k)

theorem mem_slotsWhere {p : Claim → Bool} :
    k ∈ slotsWhere s p ↔ k < 16 ∧ ∃ c, s.arbiter.claims.get k = some c ∧ p c = true := by
  unfold slotsWhere
  rw [mem_indices]
  rcases s.arbiter.claims.get k with _ | c <;> simp

theorem claims_mapIdx (f : Claim → Claim) (a : Arbiter) (k : Nat) :
    (a.claims.mapIdx fun _ c => c.map f).get k = (a.claims.get k).map f := by
  by_cases hk : k < 16
  · exact Tab.get_mapIdx _ _ hk
  · rw [claims_beyond (Nat.not_lt.mp hk)]
    exact Tab.get_beyond _ (Nat.not_lt.mp hk)

theorem offAir_of_retryDue {c : Claim} (hc : s.arbiter.claims.get k = some c) (h : c.state.retryDue = true) :
    OffAir s k := by
  rw [OffAir, hc, Option.bind_some, Claim.onAirStamp]
  rcases hstate : c.state <;> simp_all [ClaimState.retryDue]

theorem Kept.claimTimers : Kept x D s D (claimTimers s) := by
  have hlower : Kept x D s D (s.onArbiter fun a =>
      { a with claims := a.claims.mapIdx fun _ c => c.map fun c => { c with state := c.state.lower } }) := by
    refine .mapClaims (fun _ c => { c with state := c.state.lower }) (claims_mapIdx _ _) fun k c _ => ⟨?_, rfl⟩
    have hstamp : ({ c with state := c.state.lower } : Claim).onAirStamp = c.onAirStamp := by
      unfold Claim.onAirStamp
      rcases c.state <;> rfl
    exact ⟨rfl, rfl, hstamp, by rw [Claim.air, hstamp, Claim.air]⟩
  refine (hlower.trans (.dropClaims .noAnswer _)).trans (.enterConfirmings fun k hk => ?_)
  obtain ⟨-, c, hc, hdue⟩ := mem_slotsWhere.mp hk
  exact offAir_of_retryDue hc hdue

/-! ### Plan claims, masks and base values (R73, R80, R81) -/

theorem get_foldl_set_unchanged {α : Type} [Inhabited α] {n : Nat} (changes : List (Nat × α)) (p : Tab α n) {z : Nat}
    (h : ∀ c ∈ changes, c.1 ≠ z) : (changes.foldl (fun p c => p.set c.1 c.2) p).get z = p.get z := by
  induction changes generalizing p with
  | nil => rfl
  | cons c changes ih =>
    rw [List.foldl_cons, ih _ fun d hd => h d (List.mem_cons_of_mem _ hd), Tab.get_set_ne _ _ (h c List.mem_cons_self)]

theorem Kept.takePlanClaims (hx : x.plan) (changes : List (Nat × Option PlanKind)) :
    Kept x D s D (takePlanClaims changes s) := by
  refine ((Kept.setPlanClaims hx _).trans (.choiceEvent fun _ => indices_lt)).weaken ?_
  rintro z hz ⟨hD | hne, hno⟩
  · exact hD
  · refine absurd (mem_indices.mpr ⟨hz, ?_⟩) hno
    refine Classical.byContradiction fun hnone => ?_
    refine hne (get_foldl_set_unchanged changes _ fun c hc heq => hnone ?_)
    exact List.any_eq_true.mpr ⟨c, hc, decide_eq_true heq⟩

theorem Kept.chooseAndCheck {old : Tab Nat 128} {zs : List Nat} (hzs : x.inRange → ∀ z ∈ zs, z < 128) :
    Kept x D s (D.but fun z => z ∈ zs) (chooseAndCheck old zs s) := by
  induction zs generalizing D s with
  | nil => exact (Kept.refl x D s).weaken fun _ _ h => ⟨h, List.not_mem_nil⟩
  | cons z zs ih =>
    refine (((Kept.chooseHolder fun hx => hzs hx z List.mem_cons_self).trans (.zoneDisabledCheck _ z)).trans
      (ih fun hx y hy => hzs hx y (List.mem_cons_of_mem _ hy))).weaken ?_
    rintro y - ⟨⟨hD, hne⟩, hy⟩
    exact ⟨hD, fun hmem => (List.mem_cons.mp hmem).elim hne hy⟩

theorem Kept.setMask (first count value : Nat) : Kept x D s D (setMask first count value s).1 := by
  unfold Machine.setMask
  split
  · exact .refl x D s
  · next hvalid =>
    have hspan : first + count ≤ 128 := by omega
    refine (((Kept.setMasks _).trans (.chooseAndCheck fun _ z hz => ?_)).trans .testPending).weaken ?_
    · obtain ⟨i, hi, rfl⟩ := List.mem_map.mp hz
      have := List.mem_range.mp hi
      omega
    · rintro z hz ⟨hD | hne, hno⟩
      · exact hD
      · by_cases hin : first ≤ z ∧ z < first + count
        · exact absurd (List.mem_map.mpr ⟨z - first, List.mem_range.mpr (by omega), by omega⟩) hno
        · refine absurd (Eq.trans (Tab.get_mapIdx _ _ hz) ?_) hne
          exact if_neg hin

theorem Kept.setBaseValues : Kept x D s .every (setBaseValues s) :=
  ((Kept.setMasks _).weaken fun _ _ _ => trivial).trans (.onCrosspoint)

/-- The base values make every zone's choice. -/
theorem Kept.takeBaseValues : Kept x D s .empty (takeBaseValues s) := by
  refine (((Kept.touchZones _).trans .setBaseValues).trans
    ((Kept.chooseAndCheck fun _ z hz => List.mem_range.mp hz).weaken ?_)).trans .testPending
  rintro z hz ⟨-, hno⟩
  exact absurd (List.mem_range.mpr hz) hno

/-! ### The supervision reservation (R102) -/

theorem Kept.releaseReservation : Kept x D s D (releaseReservation z s) := by
  refine .of_range fun r hr => ?_
  unfold Machine.releaseReservation
  split
  · next hres =>
    refine (Kept.trans (.setReserved (.inl rfl) nofun) (.choiceEvent (zs := [z]) fun hx y hy => ?_)).weaken ?_
    · rw [List.mem_singleton.mp hy]
      exact (hr hx).reserved z hres
    · rintro y - ⟨hD | hy | hy, hno⟩
      · exact hD
      · exact absurd (List.mem_singleton.mpr (Option.some.inj (hy.symm.trans hres))) hno
      · cases hy
  · exact .refl _ D s

theorem Kept.endOtherReservation : Kept x D s D (endOtherReservation z s) := by
  unfold Machine.endOtherReservation
  split
  · split
    · exact .refl x D s
    · exact .releaseReservation
  · exact .refl x D s

/-- With no zone reserved, or `z` alone, zone `z` is reserved. -/
theorem Kept.reserve (hx : x.sequencer) (hz : x.inRange → z < 128)
    (hothers : ∀ y, s.arbiter.reserved = some y → y = z) : Kept x D s D (reserve z s) := by
  refine (Kept.trans (.setReserved (.inr hx) fun hr y hy => Option.some.inj hy ▸ hz hr)
    (.choiceEvent (zs := [z]) fun hr y hy => List.mem_singleton.mp hy ▸ hz hr)).weaken ?_
  rintro y - ⟨hD | hy | hy, hno⟩
  · exact hD
  · exact absurd (List.mem_singleton.mpr (hothers y hy)) hno
  · exact absurd (List.mem_singleton.mpr (Option.some.inj hy).symm) hno

/-- No other zone than `z` is reserved once the reservation of another has ended. -/
theorem endOtherReservation_reserved {y : Nat} (h : (endOtherReservation z s).arbiter.reserved = some y) : y = z := by
  unfold Machine.endOtherReservation at h
  rcases hres : s.arbiter.reserved with _ | w
  · rw [hres] at h
    rw [hres] at h
    cases h
  · simp only [hres] at h
    split at h
    · next hw => exact (Option.some.inj (h.symm.trans hres)).trans hw
    · unfold Machine.releaseReservation at h
      rw [if_pos hres] at h
      have hnone := (Kept.choiceEvent (x := ⟨True, False, True, False⟩) (D := .empty)
        (s := s.onArbiter fun a => { a with reserved := none }) (zs := [w]) False.elim).reserved id
      rcases hnone with hnone | hnone
      · rw [hnone] at h
        cases h
      · rw [hnone] at h
        cases h

theorem Kept.requestReservation (hx : x.sequencer) (hz : x.inRange → z < 128) :
    Kept x D s D (requestReservation z s).1 := by
  unfold Machine.requestReservation
  split
  · exact Kept.endOtherReservation.trans (.reserve hx hz fun y hy => endOtherReservation_reserved hy)
  · exact .endOtherReservation

end Sys2Proof.Machine
end

section
/-! SUPPORT. The Supervision Sequencer's work keeps the laws, and leaves no owed step waiting in IDLE (R126 to R145). -/

namespace Sys2Proof.Machine

variable {x : Reach} {D : Zones} {s t : State} {z k level n : Nat}

/-! ### Scrubbing and results (R140 to R144) -/

theorem mem_smallEntry_table {r : EntryRef} (h : r ∈ smallEntry k) : r.table ≠ .zoneRecord := by
  unfold smallEntry at h
  split at h
  · simp_all [planRef]
  split at h
  · simp_all [translationRef]
  split at h
  · simp_all [defaultRef]
  split at h
  · simp_all [headerRef]
  split at h
  · simp_all [authorityRef]
  · cases h

/-- The one Zone Record of a scrub line is that of the zone of its number. -/
theorem scrubEntries_zoneRecord {r : EntryRef} (h : r ∈ scrubEntries k) (ht : r.table = .zoneRecord) : r.index = k := by
  unfold scrubEntries at h
  simp only [List.mem_append, List.mem_cons, List.not_mem_nil, or_false] at h
  rcases h with (((rfl | h) | h) | h) | h
  · rfl
  · split at h
    · rw [List.mem_singleton.mp h] at ht
      cases ht
    · cases h
  · rcases h with rfl | rfl | rfl | rfl <;> cases ht
  · rcases h with rfl | rfl <;> cases ht
  · exact absurd ht (mem_smallEntry_table h)

theorem Kept.scrubLine (hk : x.inRange → k < 128) : Kept x D s D (scrubLine k s) := by
  have hwalk : ∀ l : List EntryRef, (∀ r ∈ l, r ∈ scrubEntries k) →
      ∀ s, Kept x D s D (l.foldl (fun t r => (Machine.useAny r t).1) s) := by
    intro l
    induction l with
    | nil => exact fun _ s => .refl x D s
    | cons r l ih =>
      intro hl s
      refine Kept.trans (.useAny fun hx ht => ?_) (ih (fun q hq => hl q (List.mem_cons_of_mem _ hq)) _)
      rw [scrubEntries_zoneRecord (hl r List.mem_cons_self) ht]
      exact hk hx
  exact hwalk _ (fun _ => id) s

/-- The Sequencer's work may be taken to start with its pointers in range wherever ranges are claimed. -/
theorem Kept.of_sequencer (hx : x.sequencer)
    (h : ∀ y : Reach, y.sequencer → (y.inRange → ZoneLaw s) → Kept y D s D t) : Kept x D s D t :=
  .of_range fun r hr => h { x with inRange := r } hx hr

theorem Kept.scrubNext (hx : x.sequencer) : Kept x D s D (scrubNext s) := by
  refine .of_sequencer hx fun x hx hr => (Kept.scrubLine fun hz => (hr hz).scrub).trans (.onSequencer hx fun _ hz => ?_)
  exact ⟨hz.pointer, Nat.mod_lt _ (by decide), hz.step, hz.reserved⟩

theorem Kept.setResult (hx : x.sequencer) (r : LastResult) : Kept x D s D (setResult z r s) :=
  .onSequencer hx fun _ hz => ⟨hz.pointer, hz.scrub, hz.step, hz.reserved⟩

theorem Kept.askLineFaults (r : LastResult) : Kept x D s D (askLineFaults z r s) := by
  unfold Machine.askLineFaults
  split
  · split
    · exact .addFault _
    · exact .refl x D s
  · split
    · exact ((((Kept.removeFault _).trans (.removeFault _)).trans (.removeFault _)).trans (.removeFault _)).trans
        (.removeFault _)
    · exact .refl x D s
  · exact .refl x D s

theorem Kept.recordResult (hx : x.sequencer) (hz : x.inRange → z < 128) (report : Option Report) :
    Kept x D s D (recordResult z report s) := by
  unfold Machine.recordResult
  have hused : Kept x D s D (Machine.useZone z s).1 := .useZone hz
  rcases huse : Machine.useZone z s with ⟨t, _ | _⟩
  all_goals rw [huse] at hused
  · exact hused
  · exact hused.trans ((Kept.setResult hx _).trans (.askLineFaults _))

/-! ### The end of a step (R142) -/

theorem Kept.setStep (hx : x.sequencer) {p : StepState} (hp : x.inRange → p ≠ .idle → p.zoneCode < 128) :
    Kept x D s D (setStep p s) :=
  .onSequencer hx fun hr hz => ⟨hz.pointer, hz.scrub, hp hr, hz.reserved⟩

theorem passOwed_fields (q : Sequencer) :
    q.passOwed = { q with latch := q.passOwed.latch, overdue := q.passOwed.overdue } := by
  unfold Sequencer.passOwed
  split <;> rfl

theorem ZoneLaw.passOwed (h : ZoneLaw s) : ZoneLaw (s.onSequencer Sequencer.passOwed) := by
  refine ⟨?_, ?_, ?_, h.reserved⟩ <;> rw [State.onSequencer_sequencer, passOwed_fields]
  · exact h.pointer
  · exact h.scrub
  · exact h.step

theorem Kept.passOwed (hx : x.sequencer) : Kept x D s D (s.onSequencer Sequencer.passOwed) :=
  .onSequencer hx fun _ hz => hz.passOwed

theorem Kept.closeStep (hx : x.sequencer) : Kept x D s D (closeStep z s) := by
  have hpointer : Kept x D s D (s.onSequencer fun q => { q with pointer := (z + 1) % 128 }) :=
    .onSequencer hx fun _ hz => ⟨Nat.mod_lt _ (by decide), hz.scrub, hz.step, hz.reserved⟩
  exact ((hpointer.trans (.scrubNext hx)).trans (.setStep hx fun _ h => absurd rfl h)).trans (.passOwed hx)

theorem Kept.endStep (hx : x.sequencer) (hz : x.inRange → z < 128) (report : Option Report) :
    Kept x D s D (endStep z report s) := (Kept.recordResult hx hz report).trans (.closeStep hx)

theorem Kept.endPilot (hx : x.sequencer) (hz : x.inRange → z < 128) (report : Option Report) :
    Kept x D s D (endPilot z report s) :=
  ((Kept.recordResult hx hz report).trans .releaseReservation).trans (.closeStep hx)

theorem Kept.endBusySkipped (hx : x.sequencer) : Kept x D s D (endBusySkipped z s) :=
  (Kept.setResult hx _).trans (.closeStep hx)

/-! ### The start of a step (R129 to R131) -/

theorem Kept.inUseTest (hx : x.sequencer) (hz : x.inRange → z < 128) : Kept x D s D (inUseTest z s) :=
  .endStep hx hz _

theorem deferOn_zoneCode (z : Nat) (p : StepState) : (p.deferOn z).zoneCode = z := by
  unfold StepState.deferOn
  split
  · split
    · next h => exact h
    · rfl
  · rfl

theorem Kept.actOnAnswer (hx : x.sequencer) (hz : x.inRange → z < 128) : Kept x D s D (actOnAnswer z level s) := by
  unfold Machine.actOnAnswer
  split
  · exact .setStep hx fun hr _ => hz hr
  · split
    · exact .inUseTest hx hz
    · refine .onSequencer hx fun hr hl => ⟨hl.pointer, hl.scrub, fun _ => ?_, hl.reserved⟩
      exact Nat.lt_of_le_of_lt (Nat.le_of_eq (deferOn_zoneCode z _)) (hz hr)

theorem Kept.openStep (hx : x.sequencer) (hz : x.inRange → z < 128) : Kept x D s D (openStep z s) := by
  unfold Machine.openStep
  split
  · exact .endStep hx hz none
  · have hasked : Kept x D s D (Machine.requestReservation z s).1 := .requestReservation hx hz
    exact hasked.trans (.actOnAnswer hx hz)

theorem Kept.search (hz : x.inRange → z < 128) : Kept x D s D (search n z s).1 := by
  induction n generalizing z s with
  | zero => exact .refl x D s
  | succ n ih =>
    have hused : Kept x D s D (Machine.useZone z s).1 := .useZone hz
    unfold Machine.search
    rcases huse : Machine.useZone z s with ⟨t, ok⟩
    rw [huse] at hused
    dsimp only
    split
    · exact hused
    · exact hused.trans (ih fun _ => Nat.mod_lt _ (by decide))

/-- The zone found by a search from a zone of the part is one. -/
theorem search_lt {y : Nat} (hz : z < 128) (h : (search n z s).2 = some y) : y < 128 := by
  induction n generalizing z s with
  | zero => cases h
  | succ n ih =>
    unfold Machine.search at h
    rcases huse : Machine.useZone z s with ⟨t, ok⟩
    rw [huse] at h
    dsimp only at h
    split at h
    · exact Option.some.inj h ▸ hz
    · exact ih (Nat.mod_lt _ (by decide)) h

theorem Kept.startStep (hx : x.sequencer) : Kept x D s D (startStep s) := by
  refine .of_sequencer hx fun x hx hr => ?_
  unfold Machine.startStep
  dsimp only
  have hlatch : Kept x D s D (s.onSequencer fun q => { q with latch := false }) :=
    .onSequencer hx fun _ hz => ⟨hz.pointer, hz.scrub, hz.step, hz.reserved⟩
  have hsearched := hlatch.trans (.search (n := 128) (z := s.sequencer.pointer) fun hin => (hr hin).pointer)
  have hfound {y : Nat} := search_lt (n := 128) (z := s.sequencer.pointer) (y := y)
    (s := s.onSequencer fun q => { q with latch := false })
  rw [State.onSequencer_sequencer]
  rcases hsearch : Machine.search 128 s.sequencer.pointer (s.onSequencer fun q => { q with latch := false }) with
    ⟨u, _ | y⟩
  all_goals rw [hsearch] at hsearched hfound
  · exact Kept.trans hsearched (Kept.trans (.scrubNext hx) (.passOwed hx))
  · have hy : x.inRange → y < 128 := fun hin => hfound (hr hin).pointer rfl
    refine hsearched.trans (Kept.trans (.onSequencer hx fun hin hz => ?_) (.openStep hx hy))
    exact ⟨hy hin, hz.scrub, hz.step, hz.reserved⟩

theorem Kept.runSteps (hx : x.sequencer) : Kept x D s D (runSteps n s) := by
  induction n generalizing s with
  | zero => exact .refl x D s
  | succ n ih =>
    unfold Machine.runSteps
    split
    · exact (Kept.startStep hx).trans ih
    · exact .refl x D s

theorem Kept.startOwed (hx : x.sequencer) : Kept x D s D (startOwed s) := .runSteps hx

/-! ### Requests for steps and the events of a step in hand (R127 to R136) -/

theorem request_fields (n : Nat) (q : Sequencer) :
    q.request n = { q with latch := (q.request n).latch, overdue := (q.request n).overdue } := by
  unfold Sequencer.request
  split <;> rfl

theorem Kept.owe (hx : x.sequencer) : Kept x D s D (s.onSequencer (Sequencer.request n)) :=
  .onSequencer hx fun _ hz => by
    refine ⟨?_, ?_, ?_, hz.reserved⟩
    all_goals rw [State.onSequencer_sequencer, request_fields]
    · exact hz.pointer
    · exact hz.scrub
    · exact hz.step

theorem Kept.checkDeferral (hx : x.sequencer) : Kept x D s D (checkDeferral z n s) := by
  unfold Machine.checkDeferral
  rw [readTiming_value]
  dsimp only
  split
  · exact Kept.headerUsed.trans ((Kept.endBusySkipped hx).trans (.startOwed hx))
  · exact .headerUsed

theorem Kept.supervisionTick (hx : x.sequencer) : Kept x D s D (supervisionTick s) := by
  unfold Machine.supervisionTick
  split
  · next z n hstep =>
    refine Kept.trans (.onSequencer hx fun _ hz => ?_) (.checkDeferral hx)
    have hstepZone := hz.step (by simp [hstep])
    rw [hstep] at hstepZone
    exact ⟨hz.pointer, hz.scrub, fun _ => hstepZone, hz.reserved⟩
  · exact (Kept.owe hx).trans (.startOwed hx)

theorem Kept.sweep (hx : x.sequencer) (count : Nat) : Kept x D s D (sweep count s).1 := by
  unfold Machine.sweep
  split
  · exact .refl x D s
  · exact (Kept.owe hx).trans (.startOwed hx)

theorem Kept.abort (hx : x.sequencer) : Kept x D s D (abort z s) := by
  unfold Machine.abort
  split
  · exact ((Kept.setStep hx fun _ h => absurd rfl h).trans (.owe hx)).trans (.startOwed hx)
  · exact .refl x D s

theorem ZoneLaw.stepZone (h : ZoneLaw s) (hidle : s.sequencer.step ≠ .idle) (hz : s.sequencer.step.zoneCode = z) : z < 128 :=
  hz ▸ h.step hidle

theorem Kept.holderReport (hx : x.sequencer) : Kept x D s D (holderReport z level s) := by
  refine .of_sequencer hx fun x hx hr => ?_
  unfold Machine.holderReport
  split
  · next y n hstep =>
    split
    · next hy =>
      have hz : x.inRange → z < 128 := fun hin => (hr hin).stepZone (by simp [hstep]) (by rw [hstep]; exact hy)
      split
      · exact (Kept.openStep hx hz).trans (.startOwed hx)
      · split
        · exact (Kept.inUseTest hx hz).trans (.startOwed hx)
        · exact .refl _ D s
    · exact .refl _ D s
  · exact .refl _ D s

theorem Kept.beginSettle (hx : x.sequencer) (hz : x.inRange → z < 128) : Kept x D s D (beginSettle z s) := by
  unfold Machine.beginSettle
  rw [readTiming_value]
  exact Kept.headerUsed.trans (.setStep hx fun hr _ => hz hr)

theorem Kept.returnFrameArrival (hx : x.sequencer) : Kept x D s D (returnFrameArrival s) := by
  refine .of_sequencer hx fun x hx hr => ?_
  have hz {z : Nat} (hidle : s.sequencer.step ≠ .idle) (hstep : s.sequencer.step.zoneCode = z) : x.inRange → z < 128 :=
    fun hin => (hr hin).stepZone hidle hstep
  unfold Machine.returnFrameArrival
  split
  · next z hstep => exact .beginSettle hx (hz (by simp [hstep]) (by rw [hstep]; rfl))
  · next z n hstep =>
    refine .setStep hx fun hin _ => ?_
    have := hz (z := z) (by simp [hstep]) (by rw [hstep]; rfl) hin
    split <;> exact this
  · next z n hstep =>
    have hz := hz (z := z) (by simp [hstep]) (by rw [hstep]; rfl)
    have hended (report : Option Report) : Kept x D s D (Machine.startOwed (Machine.endPilot z report s)) :=
      (Kept.endPilot hx hz report).trans (.startOwed hx)
    have hwaits : Kept x D s D (Machine.setStep (.sample z (n - 1)) s) := .setStep hx fun hin _ => hz hin
    split
    · split
      · exact hended _
      · split
        · exact hended _
        · exact hwaits
    · split
      · exact hended _
      · exact hwaits
  · exact .refl _ D s

theorem Kept.setAvailable (hx : x.sequencer) (b : Bool) : Kept x D s D (setAvailable b s) :=
  .onSequencer hx fun _ hz => ⟨hz.pointer, hz.scrub, hz.step, hz.reserved⟩

theorem pilotZone_zoneCode {p : StepState} (h : p.pilotZone = some z) : p ≠ .idle ∧ p.zoneCode = z := by
  rcases p <;> simp_all [StepState.pilotZone, StepState.zoneCode]

theorem Kept.reportsAbsent (hx : x.sequencer) : Kept x D s D (reportsAbsent s) := by
  refine .of_sequencer hx fun x hx hr => ?_
  unfold Machine.reportsAbsent
  split
  · next z hz =>
    obtain ⟨hidle, hzone⟩ := pilotZone_zoneCode hz
    exact ((Kept.setAvailable hx false).trans (.endPilot hx (fun hin => (hr hin).stepZone hidle hzone) none)).trans
      (.startOwed hx)
  · exact .setAvailable hx false

theorem Kept.takeMail (hx : x.sequencer) (m : SequencerMail) : Kept x D s D (takeMail m s) := by
  cases m with
  | report z level => exact .holderReport hx
  | abort z => exact .abort hx

theorem Kept.drain (hx : x.sequencer) : Kept x D s D (drain n s) := by
  induction n generalizing s with
  | zero => exact .refl x D s
  | succ n ih =>
    unfold Machine.drain
    split
    · exact .refl x D s
    · exact (Kept.dropMail _).trans ((Kept.takeMail hx _).trans ih)

end Sys2Proof.Machine
end

section
/-! SUPPORT. The Supervision Sequencer starts every owed step that can start, and leaves none waiting in IDLE (R129, R142). -/

namespace Sys2Proof.Machine

variable {s t : State} {z n level : Nat}

/-! ### The Sequencer beside the arbiter's work -/

@[simp] theorem releaseReservation_sequencer (z : Nat) (s : State) : (releaseReservation z s).sequencer = s.sequencer := by
  unfold releaseReservation
  split <;> simp

@[simp] theorem endOtherReservation_sequencer (z : Nat) (s : State) : (endOtherReservation z s).sequencer = s.sequencer := by
  unfold endOtherReservation
  split
  · split <;> simp
  · rfl

@[simp] theorem requestReservation_sequencer (z : Nat) (s : State) :
    (requestReservation z s).1.sequencer = s.sequencer := by
  unfold requestReservation reserve
  split <;> simp

@[simp] theorem useAny_sequencer (r : EntryRef) (s : State) : (useAny r s).1.sequencer = s.sequencer := by
  unfold useAny
  split <;> simp

@[simp] theorem scrubLine_sequencer (k : Nat) (s : State) : (scrubLine k s).sequencer = s.sequencer :=
  sequencer_foldl (fun t r => useAny_sequencer r t) _ s

@[simp] theorem headerUsed_sequencer (s : State) : (headerUsed s).sequencer = s.sequencer := useEntry_sequencer _ s

@[simp] theorem search_sequencer (n z : Nat) (s : State) : (search n z s).1.sequencer = s.sequencer := by
  induction n generalizing z s with
  | zero => rfl
  | succ n ih =>
    have hused := useZone_sequencer z s
    unfold search
    rcases huse : useZone z s with ⟨t, ok⟩
    rw [huse] at hused
    dsimp only
    split
    · exact hused
    · rw [ih, hused]

/-! ### Owed steps -/

/-- The steps owed: the latch's and the overdue ones. -/
def Sequencer.owed (q : Sequencer) : Nat := (if q.latch then 1 else 0) + q.overdue

/-- With a clear latch nothing is overdue. -/
def Sequencer.Passed (q : Sequencer) : Prop := q.latch = false → q.overdue = 0

theorem owed_passOwed (q : Sequencer) : q.passOwed.owed = q.owed := by
  unfold Sequencer.passOwed Sequencer.owed
  split
  · next h => simp only [h.1, if_true, Bool.false_eq_true, if_false]; omega
  · rfl

theorem passed_passOwed (q : Sequencer) : q.passOwed.Passed := by
  unfold Sequencer.passOwed Sequencer.Passed
  split
  · exact nofun
  · next h => exact fun hlatch => by simpa [hlatch] using h

theorem passed_request (n : Nat) (q : Sequencer) : (q.request n).Passed := by
  unfold Sequencer.request Sequencer.Passed
  split
  · exact nofun
  · next h => exact fun hlatch => absurd hlatch h

theorem owedLaw_of_step {q : Sequencer} (h : q.step ≠ .idle) : OwedLaw q := fun hidle => absurd hidle h

theorem OwedLaw.passed {q : Sequencer} (h : OwedLaw q) (hidle : q.step = .idle) : q.Passed := fun _ => (h hidle).2

/-- A step is in hand, or one owed step stands in the latch and at most `n` are owed. -/
def Ready (n : Nat) (q : Sequencer) : Prop := q.step ≠ .idle ∨ (q.Passed ∧ q.owed ≤ n)

theorem owed_recordResult (z : Nat) (report : Option Report) (s : State) :
    (recordResult z report s).sequencer.owed = s.sequencer.owed := by
  have hused := useZone_sequencer z s
  unfold recordResult
  rcases huse : useZone z s with ⟨t, _ | _⟩
  all_goals rw [huse] at hused
  · exact congrArg Sequencer.owed hused
  · simp only [askLineFaults_sequencer, setResult_sequencer]
    exact (rfl : _ = t.sequencer.owed).trans (congrArg Sequencer.owed hused)

/-- The end of a step passes an owed step to the latch. -/
theorem ready_closeStep (z : Nat) (s : State) : Ready s.sequencer.owed (closeStep z s).sequencer := by
  refine .inr ⟨passed_passOwed _, Nat.le_of_eq ((owed_passOwed _).trans ?_)⟩
  simp only [setStep, scrubNext, State.onSequencer_sequencer, scrubLine_sequencer]
  rfl

theorem ready_endStep (z : Nat) (report : Option Report) (s : State) :
    Ready s.sequencer.owed (endStep z report s).sequencer :=
  owed_recordResult z report s ▸ ready_closeStep z _

theorem ready_endPilot (z : Nat) (report : Option Report) (s : State) :
    Ready s.sequencer.owed (endPilot z report s).sequencer := by
  have h := ready_closeStep z (releaseReservation z (recordResult z report s))
  rwa [releaseReservation_sequencer, owed_recordResult] at h

theorem ready_endBusySkipped (z : Nat) (s : State) : Ready s.sequencer.owed (endBusySkipped z s).sequencer :=
  ready_closeStep z _

theorem deferOn_ne_idle (z : Nat) (p : StepState) : p.deferOn z ≠ .idle := by
  unfold StepState.deferOn
  split
  · split <;> nofun
  · nofun

theorem ready_actOnAnswer (z level : Nat) (s : State) : Ready s.sequencer.owed (actOnAnswer z level s).sequencer := by
  unfold actOnAnswer
  split
  · exact .inl nofun
  · split
    · exact ready_endStep z _ s
    · exact .inl (deferOn_ne_idle z _)

theorem ready_openStep (z : Nat) (s : State) : Ready s.sequencer.owed (openStep z s).sequencer := by
  unfold openStep
  split
  · exact ready_endStep z none s
  · have h := ready_actOnAnswer z (requestReservation z s).2 (requestReservation z s).1
    rwa [requestReservation_sequencer] at h

/-- A step started has used one of the steps owed. -/
theorem ready_startStep (hlatch : s.sequencer.latch = true) : Ready (s.sequencer.owed - 1) (startStep s).sequencer := by
  have howed : s.sequencer.owed - 1 = s.sequencer.overdue := by simp [Sequencer.owed, hlatch]
  have hsearched := search_sequencer 128 s.sequencer.pointer (s.onSequencer fun q => { q with latch := false })
  unfold startStep
  dsimp only
  rw [howed, State.onSequencer_sequencer]
  rcases hsearch : search 128 s.sequencer.pointer (s.onSequencer fun q => { q with latch := false }) with ⟨u, _ | y⟩
  all_goals rw [hsearch] at hsearched
  · refine .inr ⟨passed_passOwed _, Nat.le_of_eq ((owed_passOwed _).trans ?_)⟩
    simp only [scrubNext, State.onSequencer_sequencer, scrubLine_sequencer]
    simp only at hsearched
    simp [hsearched, Sequencer.owed]
  · have h := ready_openStep y (u.onSequencer fun q => { q with pointer := y })
    simp only at hsearched
    rw [State.onSequencer_sequencer, hsearched] at h
    simpa [Sequencer.owed] using h

theorem owedLaw_runSteps (h : Ready n s.sequencer) : OwedLaw (runSteps n s).sequencer := by
  induction n generalizing s with
  | zero =>
    intro hidle
    obtain ⟨-, hzero⟩ := h.resolve_left (Classical.not_not.mpr hidle)
    unfold Sequencer.owed at hzero
    have hlatch : s.sequencer.latch = false := by
      refine Classical.byContradiction fun hset => ?_
      simp [hset] at hzero
    have hoverdue : s.sequencer.overdue = 0 := by omega
    exact ⟨hlatch, hoverdue⟩
  | succ n ih =>
    unfold runSteps
    split
    · next hstart =>
      obtain ⟨-, howed⟩ := h.resolve_left (Classical.not_not.mpr hstart.1)
      exact ih ((ready_startStep hstart.2).imp_right fun hr => ⟨hr.1, by omega⟩)
    · next hstop =>
      intro hidle
      obtain ⟨hpassed, -⟩ := h.resolve_left (Classical.not_not.mpr hidle)
      have hlatch : s.sequencer.latch = false := by simpa [hidle] using hstop
      exact ⟨hlatch, hpassed hlatch⟩

theorem owed_le (q : Sequencer) : q.owed ≤ q.overdue + 1 := by
  unfold Sequencer.owed
  split <;> omega

/-- Where a step is in hand, or the latch holds an owed step, starting those that can start leaves none waiting. -/
theorem owedLaw_startOwed (h : s.sequencer.step ≠ .idle ∨ s.sequencer.Passed) : OwedLaw (startOwed s).sequencer :=
  owedLaw_runSteps (h.imp_right fun hpassed => ⟨hpassed, owed_le _⟩)

theorem Ready.startOwed (h : Ready n s.sequencer) : OwedLaw (startOwed s).sequencer :=
  owedLaw_startOwed (h.imp_right And.left)

theorem owedLaw_checkDeferral (h : s.sequencer.step ≠ .idle) : OwedLaw (checkDeferral z n s).sequencer := by
  unfold checkDeferral
  rw [readTiming_value]
  dsimp only
  split
  · exact (ready_endBusySkipped z _).startOwed
  · rw [headerUsed_sequencer]
    exact owedLaw_of_step h

theorem owedLaw_supervisionTick (s : State) : OwedLaw (supervisionTick s).sequencer := by
  unfold supervisionTick
  split
  · exact owedLaw_checkDeferral nofun
  · exact owedLaw_startOwed (.inr (passed_request 1 _))

theorem owedLaw_sweep (count : Nat) (h : OwedLaw s.sequencer) : OwedLaw (sweep count s).1.sequencer := by
  unfold sweep
  split
  · exact h
  · exact owedLaw_startOwed (.inr (passed_request count _))

theorem owedLaw_abort (h : OwedLaw s.sequencer) : OwedLaw (abort z s).sequencer := by
  unfold abort
  split
  · exact owedLaw_startOwed (.inr (passed_request 1 _))
  · exact h

theorem owedLaw_holderReport (h : OwedLaw s.sequencer) : OwedLaw (holderReport z level s).sequencer := by
  unfold holderReport
  split
  · split
    · split
      · exact (ready_openStep z s).startOwed
      · split
        · exact (ready_endStep z _ s).startOwed
        · exact h
    · exact h
  · exact h

theorem owedLaw_returnFrameArrival (h : OwedLaw s.sequencer) : OwedLaw (returnFrameArrival s).sequencer := by
  unfold returnFrameArrival
  split
  · unfold beginSettle
    rw [readTiming_value]
    exact owedLaw_of_step nofun
  · refine owedLaw_of_step ?_
    show (if _ then _ else _ : StepState) ≠ _
    split <;> nofun
  · have hended (z : Nat) (report : Option Report) : OwedLaw (startOwed (endPilot z report s)).sequencer :=
      (ready_endPilot z report s).startOwed
    split
    · split
      · exact hended _ _
      · split
        · exact hended _ _
        · exact owedLaw_of_step nofun
    · split
      · exact hended _ _
      · exact owedLaw_of_step nofun
  · exact h

theorem owedLaw_reportsAbsent (h : OwedLaw s.sequencer) : OwedLaw (reportsAbsent s).sequencer := by
  unfold reportsAbsent
  split
  · exact (ready_endPilot _ none _).startOwed
  · exact h

theorem owedLaw_drain (h : OwedLaw s.sequencer) : OwedLaw (drain n s).sequencer := by
  induction n generalizing s with
  | zero => exact h
  | succ n ih =>
    unfold drain
    split
    · exact h
    · next m rest _ =>
      refine ih ?_
      cases m with
      | report z level => exact owedLaw_holderReport h
      | abort z => exact owedLaw_abort h

end Sys2Proof.Machine
end

section
/-! SUPPORT. The Incident Engine's own work keeps the laws: demand formed anew, GENERAL set, records changed, added and removed
(R39 to R77). -/

namespace Sys2Proof.Machine

variable {x : Reach} {D : Zones} {s t : State} {e g : Engine} {z p : Nat}

/-! ### Demand formed anew (R72, R74, R76) -/

theorem none_max (d : Demand) : Demand.none.max d = d := by cases d <;> rfl

theorem eq_none_of_rank {d : Demand} (h : d.rank ≤ 0) : d = .none := by
  cases d <;> simp_all [Demand.rank]

theorem timerAfter_ne_zero {start : Option Nat} {old new : Demand} {timer : Nat} (hold : timer ≠ 0 → old = .none)
    (h : timerAfter start old new timer ≠ 0) : new = .none := by
  unfold timerAfter at h
  split at h
  · exact absurd rfl h
  · next hrise =>
    split at h
    · next hfall => exact hfall.2
    · rw [hold h] at hrise
      exact eq_none_of_rank (Nat.le_of_not_lt hrise)

/-- Where the demand is right on the zones not formed anew, forming the others restores the law. -/
theorem demandLaw_recompute {q : Nat → Bool} (start : Option Nat)
    (hformed : ∀ z < 128, q z = false → e.demand.get z = e.formed z)
    (hclear : ∀ z < 128, e.allClear.get z ≠ 0 → e.demand.get z = .none) : DemandLaw (e.recompute q start) := by
  have hget : ∀ z < 128, (e.recompute q start).demand.get z = e.formed z := fun z hz => by
    refine (Tab.get_mapIdx _ _ hz).trans ?_
    rcases hq : q z
    · exact (if_neg Bool.false_ne_true).trans (hformed z hz hq)
    · rfl
  refine ⟨fun z hz => hget z hz, fun z hz h => ?_⟩
  rw [hget z hz]
  have htimer : (e.recompute q start).allClear.get z =
      if q z then timerAfter start (e.demand.get z) (e.formed z) (e.allClear.get z) else e.allClear.get z :=
    Tab.get_mapIdx _ _ hz
  rw [htimer] at h
  rcases hq : q z
  · rw [hq] at h
    rw [← hformed z hz hq]
    exact hclear z hz h
  · rw [hq] at h
    exact timerAfter_ne_zero (hclear z hz) h

/-- The demand that the incidents alone form. -/
def formedOf (incidents : List Incident) (z : Nat) : Demand := incidents.foldr (fun i d => (i.demand.get z).max d) .none

theorem formed_eq (e : Engine) (z : Nat) :
    e.formed z = if e.general.isSome then .evacuate else formedOf e.incidents z := rfl

theorem formed_congr (hgeneral : g.general.isSome = e.general.isSome)
    (hincidents : formedOf g.incidents z = formedOf e.incidents z) : g.formed z = e.formed z := by
  rw [formed_eq, formed_eq, hgeneral, hincidents]

/-- The law of demand is kept by a change of the incidents that leaves the demand they form. -/
theorem DemandLaw.of_incidents {l : List Incident} (h : DemandLaw e)
    (hl : ∀ z < 128, formedOf l z = formedOf e.incidents z) : DemandLaw { e with incidents := l } where
  formed z hz := (h.formed z hz).trans (formed_congr (e := { e with incidents := l }) rfl (hl z hz).symm)
  allClear := h.allClear

/-! ### Changes of one record (R40) -/

/-- What of a record the laws are read from stays, but for the DZ list, which keeps its bounds. -/
structure SameRecord (i j : Incident) : Prop where
  id : j.id = i.id
  origin : j.origin = i.origin
  dzList : 1 ≤ i.dzList.length ∧ i.dzList.length ≤ 4 → 1 ≤ j.dzList.length ∧ j.dzList.length ≤ 4

theorem map_modifyAt {α β : Type} {f : α → α} {g : α → β} (h : ∀ a, g (f a) = g a) (p : Nat) (l : List α) :
    (modifyAt f p l).map g = l.map g := by
  induction l generalizing p with
  | nil => cases p <;> rfl
  | cons a l ih =>
    cases p with
    | zero => simp [modifyAt, h]
    | succ p => simp [modifyAt, ih]

theorem length_modifyAt {α : Type} (f : α → α) (p : Nat) (l : List α) : (modifyAt f p l).length = l.length := by
  have := congrArg List.length (map_modifyAt (g := fun _ => ()) (f := f) (fun _ => rfl) p l)
  simpa using this

theorem mem_modifyAt {α : Type} {f : α → α} {p : Nat} {l : List α} {b : α} (h : b ∈ modifyAt f p l) :
    b ∈ l ∨ ∃ a ∈ l, b = f a := by
  induction l generalizing p with
  | nil => cases p <;> cases h
  | cons a l ih =>
    cases p with
    | zero =>
      rcases List.mem_cons.mp h with rfl | h
      · exact .inr ⟨a, List.mem_cons_self, rfl⟩
      · exact .inl (List.mem_cons_of_mem _ h)
    | succ p =>
      rcases List.mem_cons.mp h with rfl | h
      · exact .inl List.mem_cons_self
      · exact (ih h).imp (List.mem_cons_of_mem _) fun ⟨c, hc, hbc⟩ => ⟨c, List.mem_cons_of_mem _ hc, hbc⟩

theorem IncidentLaw.modifyAt {f : Incident → Incident} (hf : ∀ i, SameRecord i (f i)) (p : Nat) (h : IncidentLaw e) :
    IncidentLaw { e with incidents := modifyAt f p e.incidents } where
  size := by
    rw [length_modifyAt]
    exact h.size
  counter := h.counter
  ids i hi := by
    rcases mem_modifyAt hi with hi | ⟨j, hj, rfl⟩
    · exact h.ids i hi
    · rw [(hf j).id]
      exact h.ids j hj
  noIdTwice := by
    rw [map_modifyAt fun i => (hf i).id]
    exact h.noIdTwice
  noOriginTwice := by
    rw [map_modifyAt fun i => (hf i).origin]
    exact h.noOriginTwice
  dzList i hi := by
    rcases mem_modifyAt hi with hi | ⟨j, hj, rfl⟩
    · exact h.dzList i hi
    · exact (hf j).dzList (h.dzList j hj)

theorem formedOf_modifyAt {f : Incident → Incident} {l : List Incident}
    (h : ∀ i, l[p]? = some i → (f i).demand.get z = i.demand.get z) :
    formedOf (modifyAt f p l) z = formedOf l z := by
  induction l generalizing p with
  | nil => cases p <;> rfl
  | cons a l ih =>
    cases p with
    | zero => exact congrArg (Demand.max · _) (h a rfl)
    | succ p => exact congrArg (Demand.max _) (ih h)

theorem modifyAt_quiet {f : Incident → Incident} {p : Nat} (h : e.Quiet) :
    ({ e with incidents := modifyAt f p e.incidents } : Engine).Quiet := by
  obtain ⟨hincidents, hgeneral⟩ := h
  refine ⟨?_, hgeneral⟩
  show Machine.modifyAt f p e.incidents = []
  rw [hincidents]
  cases p <;> rfl

/-- A record changed beside its demand. -/
theorem Kept.onIncident (hx : x.engine) {f : Incident → Incident}
    (hf : ∀ i, SameRecord i (f i) := by exact fun _ => ⟨rfl, rfl, fun h => h⟩)
    (hdemand : ∀ i, (f i).demand = i.demand := by exact fun _ => rfl) : Kept x D s D (onIncident p f s) :=
  .onEngine hx (fun h => h.of_incidents fun z _ => formedOf_modifyAt fun i _ => by rw [hdemand]) (·.modifyAt hf p)
    (.inr modifyAt_quiet)

/-! ### Answers and the edit's end (R152, R165, R166) -/

theorem hands_fillPlace (w : Waiting) (source : Nat) (body : AnswerBody) (l : List Place) :
    (fillPlace w source body l).countP Place.isHand ≤ l.countP Place.isHand := by
  induction l with
  | nil => exact Nat.le_refl _
  | cons q l ih =>
    rcases q with ⟨v, q⟩ | a
    · unfold fillPlace
      split
      · rw [List.countP_cons, List.countP_cons]
        simp [Place.isHand]
      · rw [List.countP_cons, List.countP_cons]
        omega
    · unfold fillPlace
      rw [List.countP_cons, List.countP_cons]
      omega

theorem Kept.giveAnswer (w : Waiting) (body : AnswerBody) : Kept x D s D (giveAnswer w body s) :=
  .onRouter (fun h => { h with places := Nat.le_trans (Nat.le_of_eq (fillPlace_length ..)) h.places }) (hands_fillPlace ..)

theorem Kept.answerEnded (edit : Edit) : Kept x D s D (answerEnded edit s) := by
  unfold Machine.answerEnded
  split
  · exact .giveAnswer _ _
  · exact .refl x D s

theorem Kept.breakEdit : Kept x D s D (breakEdit s) := by
  unfold Machine.breakEdit
  split
  · exact .refl x D s
  · exact ((Kept.setEdit (e := none) nofun).trans (.notify _)).trans (.answerEnded _)

theorem answerEnded_edit (edit : Edit) (s : State) : (answerEnded edit s).tables = s.tables := by
  unfold answerEnded
  split <;> rfl

theorem breakEdit_edit (s : State) : (breakEdit s).tables.edit = none := by
  unfold breakEdit
  split
  · next h => exact h
  · rw [answerEnded_edit]
    rfl

theorem breakEdit_onEngine (f : Engine → Engine) (s : State) : breakEdit (s.onEngine f) = (breakEdit s).onEngine f := by
  unfold breakEdit answerEnded
  rw [State.onEngine_tables]
  split
  · rfl
  · split <;> rfl

theorem answerEnded_engine (edit : Edit) (s : State) : (answerEnded edit s).engine = s.engine := by
  unfold answerEnded
  split <;> rfl

theorem breakEdit_engine (s : State) : (breakEdit s).engine = s.engine := by
  unfold breakEdit
  split
  · rfl
  · exact answerEnded_engine _ _

/-! ### GENERAL (R70, R71) -/

/-- The engine once GENERAL is set with its cause. -/
def Engine.withGeneral (cause : GeneralCause) (e : Engine) : Engine :=
  Engine.recompute (fun _ => true) none { e with general := some cause }

theorem askGeneral_eq (cause : GeneralCause) (h : s.engine.general = none) :
    askGeneral cause s =
      (Machine.breakEdit (notify (.general true cause) s)).onEngine (Engine.withGeneral cause) := by
  unfold askGeneral
  rw [h]
  simp only [Option.isSome_none, Bool.false_eq_true, if_false]
  exact congrArg (recomputeZones fun _ => true)
    (breakEdit_onEngine (fun e => { e with general := some cause }) (notify (.general true cause) s))

theorem IncidentLaw.congr (h : IncidentLaw e) (hincidents : g.incidents = e.incidents)
    (hcounter : g.idCounter = e.idCounter) : IncidentLaw g := by
  refine ⟨?_, hcounter ▸ h.counter, ?_, ?_, ?_, ?_⟩
  all_goals rw [hincidents]
  · exact h.size
  · exact h.ids
  · exact h.noIdTwice
  · exact h.noOriginTwice
  · exact h.dzList

theorem Kept.askGeneral (hx : x.engine) (cause : GeneralCause) : Kept x D s D (askGeneral cause s) := by
  rcases h : s.engine.general with _ | c
  · rw [askGeneral_eq cause h]
    refine ((Kept.notify _).trans .breakEdit).trans (.onEngine hx (fun hl => ?_) (·.congr rfl rfl)
      (.inl (breakEdit_edit _)))
    exact demandLaw_recompute none (fun _ _ hq => nomatch hq) hl.allClear
  · unfold Machine.askGeneral
    rw [h]
    exact .refl x D s

theorem Kept.planFault (hx : x.engine) : Kept x D s D (planFault p s) :=
  (Kept.askGeneral hx _).trans (.onIncident hx)

/-! ### Steps applied, due checks and plan entry (R19, R25, R59) -/

theorem get_raiseVector (d : Demand) (zs : List Nat) (v : Tab Demand 128) (hz : z < 128) :
    (raiseVector d zs v).get z = if z ∈ zs then (v.get z).max d else v.get z := Tab.get_mapIdx _ _ hz

/-- The record with its demand raised to `d` on the zones listed (R31). -/
def Incident.raisedTo (d : Demand) (zs : List Nat) (i : Incident) : Incident :=
  { i with demand := raiseVector d zs i.demand }

/-- A zone that is not among those the incident raises keeps the demand its record holds. -/
theorem raisedTo_demand {i : Incident} {d : Demand} {zs : List Nat} (hi : s.incident p = some i) (hz : z < 128)
    (hnot : z ∉ raisedZones s p d zs) : (i.raisedTo d zs).demand.get z = i.demand.get z := by
  refine (get_raiseVector d zs _ hz).trans ?_
  split
  · next hmem =>
    have hle : ¬(i.demand.get z).rank < d.rank := fun hlt => hnot (by
      unfold raisedZones
      rw [hi]
      exact List.mem_filter.mpr ⟨hmem, decide_eq_true hlt⟩)
    rw [Demand.max, if_neg hle]
  · rfl

theorem Kept.raiseZones (hx : x.engine) (d : Demand) (zs : List Nat) : Kept x D s D (raiseZones p d zs s) := by
  refine .onEngine (f := fun e => Engine.recompute (fun z => (raisedZones s p d zs).contains z) none
      { e with incidents := modifyAt (Incident.raisedTo d zs) p e.incidents }) hx
    (fun hl => demandLaw_recompute none (fun z hz hq => ?_) hl.allClear)
    (fun hl => (hl.modifyAt (f := Incident.raisedTo d zs) (fun i => ⟨rfl, rfl, id⟩) p).congr rfl rfl)
    (.inr fun hq => modifyAt_quiet (f := Incident.raisedTo d zs) hq)
  refine (hl.formed z hz).trans (formed_congr rfl (formedOf_modifyAt fun i hi => ?_).symm)
  exact raisedTo_demand hi hz (by simpa using hq)

theorem Kept.readStoreyCount : Kept x D s D (readStoreyCount s).1 := by
  have hused : Kept x D s D (Machine.useEntry headerRef s).1 := .useOther nofun
  unfold Machine.readStoreyCount
  rcases huse : Machine.useEntry headerRef s with ⟨t, _ | _⟩
  all_goals rw [huse] at hused; exact hused

theorem Kept.readSpan (storey : Nat) : Kept x D s D (readSpan storey s).1 := by
  have hused : Kept x D s D (Machine.useEntry (storeyRef storey) s).1 := .useOther nofun
  unfold Machine.readSpan
  rcases huse : Machine.useEntry (storeyRef storey) s with ⟨t, _ | _⟩
  all_goals rw [huse] at hused; exact hused

theorem Kept.readStoreys (storeys : List Nat) : Kept x D s D (readStoreys storeys s).1 := by
  induction storeys generalizing s with
  | nil => exact .refl x D s
  | cons k rest ih =>
    have hspan : Kept x D s D (Machine.readSpan k s).1 := .readSpan k
    unfold Machine.readStoreys
    rcases hread : Machine.readSpan k s with ⟨t, _ | zs⟩
    all_goals rw [hread] at hspan
    · exact hspan
    · exact hspan.trans ih

theorem Kept.applyStep (hx : x.engine) (k : Nat) : Kept x D s D (applyStep p k s).1 := by
  unfold Machine.applyStep
  rcases s.incident p with _ | i
  · exact .refl x D s
  have hused : Kept x D s D (Machine.useEntry (stepRef k) s).1 := .useOther nofun
  rcases huse : Machine.useEntry (stepRef k) s with ⟨t, _ | _⟩
  all_goals rw [huse] at hused
  · exact hused.trans (.planFault hx)
  have hcounted : Kept x D t D (Machine.readStoreyCount t).1 := .readStoreyCount
  dsimp only
  rcases hcount : Machine.readStoreyCount t with ⟨u, _ | count⟩
  all_goals rw [hcount] at hcounted
  · exact (hused.trans hcounted).trans (.planFault hx)
  dsimp only
  generalize (stepRange count i.origin (s.tables.fields.steps.get k)).storeys = storeys
  have hspans : Kept x D u D (Machine.readStoreys storeys u).1 := .readStoreys storeys
  rcases hread : Machine.readStoreys storeys u with ⟨v, zs, _ | _⟩
  all_goals rw [hread] at hspans
  · exact ((hused.trans hcounted).trans hspans).trans ((Kept.raiseZones hx _ zs).trans (.planFault hx))
  · exact ((hused.trans hcounted).trans hspans).trans
      ((Kept.raiseZones hx _ zs).trans (.onIncident hx))

theorem Kept.dueCheck (hx : x.engine) (fuel : Nat) : Kept x D s D (dueCheck p fuel s) := by
  induction fuel generalizing s with
  | zero => exact .refl x D s
  | succ fuel ih =>
    unfold Machine.dueCheck
    rcases s.incident p with _ | i
    · exact .refl x D s
    dsimp only
    rcases i.nextStep with _ | k
    · exact .refl x D s
    have hused : Kept x D s D (Machine.useEntry (stepRef k) s).1 := .useOther nofun
    dsimp only
    rcases huse : Machine.useEntry (stepRef k) s with ⟨t, _ | _⟩
    all_goals rw [huse] at hused
    · exact hused.trans (.planFault hx)
    dsimp only
    split
    · exact hused
    · exact hused.trans ((Kept.applyStep hx k).trans ih)

theorem Kept.enterPlan (hx : x.engine) : Kept x D s D (enterPlan p s) := by
  unfold Machine.enterPlan
  rcases s.incident p with _ | i
  · exact .refl x D s
  have hused : Kept x D s D (Machine.useEntry (planRef i.plan) s).1 := .useOther nofun
  dsimp only
  rcases huse : Machine.useEntry (planRef i.plan) s with ⟨t, _ | _⟩
  all_goals rw [huse] at hused
  · exact hused.trans (.planFault hx)
  · exact hused.trans ((Kept.onIncident hx).trans (.dueCheck hx _))

/-! ### Records removed (R52, R67, R69) -/

theorem IncidentLaw.sublist {l : List Incident} (h : IncidentLaw e) (hl : l.Sublist e.incidents) :
    IncidentLaw { e with incidents := l } where
  size := Nat.le_trans hl.length_le h.size
  counter := h.counter
  ids i hi := h.ids i (hl.subset hi)
  noIdTwice := h.noIdTwice.sublist (hl.map _)
  noOriginTwice := h.noOriginTwice.sublist (hl.map _)
  dzList i hi := h.dzList i (hl.subset hi)

/-- A record with no demand on a zone forms nothing there. -/
theorem formedOf_eraseIdx {l : List Incident} (h : ∀ i, l[p]? = some i → i.demand.get z = .none) :
    formedOf (l.eraseIdx p) z = formedOf l z := by
  induction l generalizing p with
  | nil => rfl
  | cons a l ih =>
    cases p with
    | zero =>
      show formedOf l z = (a.demand.get z).max (formedOf l z)
      rw [h a rfl, none_max]
    | succ p => exact congrArg (Demand.max _) (ih h)

theorem eraseIdx_quiet (h : e.Quiet) : ({ e with incidents := e.incidents.eraseIdx p } : Engine).Quiet := by
  obtain ⟨hincidents, hgeneral⟩ := h
  exact ⟨by simp [hincidents], hgeneral⟩

theorem Kept.expireIncident (hx : x.engine) : Kept x D s D (expireIncident p s) := by
  unfold Machine.expireIncident
  rcases hi : s.incident p with _ | i
  · exact .refl x D s
  refine Kept.trans (t := s.onEngine fun e => Engine.recompute (fun z => decide (i.demand.get z ≠ .none)) none
    { e with incidents := e.incidents.eraseIdx p }) ?_ (.notify (.incident i.id .removed))
  refine .onEngine hx (fun hl => demandLaw_recompute none (fun z hz hq => ?_) hl.allClear)
    (fun hl => (hl.sublist (List.eraseIdx_sublist ..)).congr rfl rfl) (.inr eraseIdx_quiet)
  refine (hl.formed z hz).trans (formed_congr (e := { s.engine with incidents := s.engine.incidents.eraseIdx p }) rfl
    (formedOf_eraseIdx fun j hj => ?_).symm)
  rw [← Option.some.inj (hi.symm.trans hj)]
  simpa using hq

/-! ### The incident tick (R57) -/

theorem Kept.lowerAllClear (hx : x.engine) : Kept x D s D (lowerAllClear s) := by
  refine .onEngine hx (fun hl => ⟨hl.formed, fun z hz h => hl.allClear z hz fun hzero => h ?_⟩) (·.congr rfl rfl) (.inr id)
  show (s.engine.allClear.mapIdx fun _ t => t - 1).get z = 0
  rw [Tab.get_mapIdx _ _ hz, hzero]

theorem Kept.tickIncidents (hx : x.engine) (n p : Nat) : Kept x D s D (tickIncidents n p s) := by
  induction n generalizing p s with
  | zero => exact .refl x D s
  | succ n ih =>
    unfold Machine.tickIncidents
    rcases s.incident p with _ | i
    · exact .refl x D s
    dsimp only
    split
    · split
      · exact (Kept.expireIncident hx).trans (ih p)
      · exact (Kept.onIncident hx).trans (ih _)
    · exact ((Kept.onIncident hx).trans (.dueCheck hx _)).trans (ih _)
    · exact ih _

end Sys2Proof.Machine
end

section
/-! SUPPORT. Detection events, officer controls and events of the Incident Engine keep the laws (R41 to R50, R61 to R75). -/

namespace Sys2Proof.Machine

variable {x : Reach} {D : Zones} {s t : State} {e g : Engine} {z p d : Nat}

/-! ### The next free id (R41) -/

theorem nextId_range {n : Nat} (h : 1 ≤ n ∧ n ≤ 255) : 1 ≤ nextId n ∧ nextId n ≤ 255 := by
  unfold nextId
  split <;> omega

theorem freeId_range (incidents : List Incident) (fuel : Nat) {n : Nat} (h : 1 ≤ n ∧ n ≤ 255) :
    1 ≤ freeId incidents fuel n ∧ freeId incidents fuel n ≤ 255 := by
  induction fuel generalizing n with
  | zero => exact h
  | succ fuel ih =>
    unfold freeId
    split
    · exact ih (nextId_range h)
    · exact h

/-- The ids tried from `n` on. -/
def idsFrom : Nat → Nat → List Nat
  | 0, _ => []
  | fuel + 1, n => n :: idsFrom fuel (nextId n)

theorem mem_idsFrom {fuel n m : Nat} (h : m ∈ idsFrom fuel n) (hn : 1 ≤ n ∧ n ≤ 255) :
    (n ≤ m ∧ m < n + fuel) ∨ m + 255 < n + fuel := by
  induction fuel generalizing n with
  | zero => cases h
  | succ fuel ih =>
    rcases List.mem_cons.mp h with rfl | h
    · omega
    · have := ih h (nextId_range hn)
      unfold nextId at this
      split at this <;> omega

theorem nodup_idsFrom {fuel n : Nat} (hfuel : fuel ≤ 255) (hn : 1 ≤ n ∧ n ≤ 255) : (idsFrom fuel n).Nodup := by
  induction fuel generalizing n with
  | zero => exact List.nodup_nil
  | succ fuel ih =>
    refine List.nodup_cons.mpr ⟨fun hmem => ?_, ih (by omega) (nextId_range hn)⟩
    have := mem_idsFrom hmem (nextId_range hn)
    unfold nextId at this
    split at this <;> omega

/-- A search that ends on a held id has met ids that are all held. -/
theorem idsFrom_held {incidents : List Incident} {fuel n : Nat}
    (h : freeId incidents fuel n ∈ incidents.map Incident.id) : ∀ m ∈ idsFrom fuel n, m ∈ incidents.map Incident.id := by
  induction fuel generalizing n with
  | zero => simp [idsFrom]
  | succ fuel ih =>
    unfold freeId at h
    split at h
    · next hheld =>
      intro m hm
      rcases List.mem_cons.mp hm with rfl | hm
      · obtain ⟨i, hi, hid⟩ := List.any_eq_true.mp hheld
        exact List.mem_map.mpr ⟨i, hi, of_decide_eq_true hid⟩
      · exact ih h m hm
    · next hfree =>
      obtain ⟨i, hi, hid⟩ := List.mem_map.mp h
      exact absurd (List.any_eq_true.mpr ⟨i, hi, decide_eq_true hid⟩) hfree

/-- Nine moves find a free id beside eight records at most. -/
theorem freeId_free {incidents : List Incident} (hsize : incidents.length ≤ 8) {n : Nat} (hn : 1 ≤ n ∧ n ≤ 255) :
    freeId incidents 9 n ∉ incidents.map Incident.id := by
  intro hheld
  have hle := length_le_of_subset (nodup_idsFrom (fuel := 9) (by decide) hn) (idsFrom_held hheld)
  have hlength : (idsFrom 9 n).length = 9 := rfl
  rw [hlength, List.length_map] at hle
  omega

/-! ### Incidents created and joined (R45 to R49) -/

theorem findIncident_none {f : Incident → Bool} {l : List Incident} (h : findIncident f l = none) :
    ∀ i ∈ l, f i = false := by
  induction l with
  | nil => simp
  | cons i l ih =>
    unfold findIncident at h
    split at h
    · cases h
    · next hf =>
      intro j hj
      rcases List.mem_cons.mp hj with rfl | hj
      · simpa using hf
      · exact ih (by simpa using h) j hj

/-- The engine with a record for `d` appended. -/
def Engine.appended (d : Nat) (e : DetectionEntry) (window : Nat) (g : Engine) : Engine :=
  let id := freeId g.incidents 9 g.idCounter
  { g with incidents := g.incidents ++ [newIncident id d e window], idCounter := nextId id }

theorem IncidentLaw.appended {entry : DetectionEntry} (window : Nat) (h : IncidentLaw e)
    (hroom : e.incidents.length < 8) (horigin : ∀ i ∈ e.incidents, i.origin ≠ entry.storey) :
    IncidentLaw (e.appended d entry window) where
  size := by
    simp [Engine.appended]
    omega
  counter := nextId_range (freeId_range _ _ h.counter)
  ids i hi := by
    rcases List.mem_append.mp hi with hi | hi
    · exact h.ids i hi
    · rw [List.mem_singleton.mp hi]
      exact freeId_range _ _ h.counter
  noIdTwice := by
    have hfree := freeId_free h.size h.counter
    simp only [Engine.appended, List.map_append, List.nodup_append]
    refine ⟨h.noIdTwice, by simp, fun a ha b hb heq => hfree ?_⟩
    have hb : b = freeId e.incidents 9 e.idCounter := by simpa [newIncident] using hb
    rwa [← hb, ← heq]
  noOriginTwice := by
    simp only [Engine.appended, List.map_append, List.nodup_append]
    refine ⟨h.noOriginTwice, by simp, fun a ha b hb heq => ?_⟩
    obtain ⟨i, hi, rfl⟩ := List.mem_map.mp ha
    exact horigin i hi (heq.trans (by simpa [newIncident] using hb))
  dzList i hi := by
    rcases List.mem_append.mp hi with hi | hi
    · exact h.dzList i hi
    · rw [List.mem_singleton.mp hi]
      simp [newIncident]

theorem formedOf_append {l : List Incident} {i : Incident} (h : i.demand.get z = .none) :
    formedOf (l ++ [i]) z = formedOf l z := by
  have hlast : (i.demand.get z).max .none = .none := by rw [h, none_max]
  rw [formedOf, List.foldr_append, List.foldr_cons, List.foldr_nil, hlast, formedOf]

theorem Kept.appendIncident (hx : x.engine) {entry : DetectionEntry} (window : Nat)
    (hroom : s.engine.incidents.length < 8) (horigin : ∀ i ∈ s.engine.incidents, i.origin ≠ entry.storey) :
    Kept x D s D (Machine.breakEdit (Machine.appendIncident d entry window s)) := by
  have heq : Machine.breakEdit (Machine.appendIncident d entry window s) =
      (Machine.breakEdit s).onEngine (Engine.appended d entry window) := breakEdit_onEngine _ s
  rw [heq]
  have hengine := breakEdit_engine s
  refine Kept.breakEdit.trans (.onEngine hx (fun hl => ?_) (fun hl => ?_) (.inl (breakEdit_edit s)))
  · rw [hengine] at hl ⊢
    have hincidents := hl.of_incidents (l := (s.engine.appended d entry window).incidents) fun z hz =>
      formedOf_append (Tab.get_const _ hz)
    exact ⟨hincidents.formed, hincidents.allClear⟩
  · rw [hengine] at hl ⊢
    exact hl.appended window hroom horigin

theorem Kept.placePreAlert (hx : x.engine) (storey : Nat) : Kept x D s D (placePreAlert p storey s) := by
  have hcounted : Kept x D s D (Machine.readStoreyCount s).1 := .readStoreyCount
  unfold Machine.placePreAlert
  rcases hcount : Machine.readStoreyCount s with ⟨t, _ | count⟩
  all_goals rw [hcount] at hcounted
  · exact hcounted.trans (.askGeneral hx _)
  have hspan : Kept x D t D (Machine.readSpan storey t).1 := .readSpan storey
  dsimp only
  rcases hread : Machine.readSpan storey t with ⟨u, _ | zs⟩
  all_goals rw [hread] at hspan
  · exact (hcounted.trans hspan).trans (.askGeneral hx _)
  · exact (hcounted.trans hspan).trans (.raiseZones hx _ zs)

theorem Kept.readWindow (confirmRequired : Bool) : Kept x D s D (readWindow confirmRequired s).1 := by
  unfold Machine.readWindow
  split
  · exact .readTiming _
  · exact .refl x D s

theorem useEntry_engine (r : EntryRef) (s : State) : (useEntry r s).1.engine = s.engine := (useEntry_worked r s).engine

theorem readWindow_engine (confirmRequired : Bool) (s : State) : (readWindow confirmRequired s).1.engine = s.engine := by
  unfold readWindow
  split
  · exact (readTiming_worked _ s).engine
  · rfl

theorem Kept.createIncident (hx : x.engine) {entry : DetectionEntry} (hroom : s.engine.incidents.length < 8)
    (horigin : ∀ i ∈ s.engine.incidents, i.origin ≠ entry.storey) : Kept x D s D (createIncident d entry s) := by
  have hread : Kept x D s D (Machine.readWindow entry.confirmRequired s).1 := .readWindow _
  have hengine := readWindow_engine entry.confirmRequired s
  unfold Machine.createIncident
  rcases hwindow : Machine.readWindow entry.confirmRequired s with ⟨t, window⟩
  rw [hwindow] at hread hengine
  have happended : Kept x D t D (Machine.breakEdit (Machine.appendIncident d entry window t)) :=
    .appendIncident hx window (by rw [hengine]; exact hroom) (by rw [hengine]; exact horigin)
  have hcreated (news : IncidentNews) := (hread.trans happended).trans
    (.notify (.incident (freeId t.engine.incidents 9 t.engine.idCounter) news))
  dsimp only
  split
  · split
    · exact (hcreated _).trans (.placePreAlert hx _)
    · exact hcreated _
  · exact (hcreated _).trans (.enterPlan hx)

theorem joinDz_sameRecord (d : Nat) (i : Incident) : SameRecord i (joinDz d i) ∧ (joinDz d i).demand = i.demand := by
  unfold joinDz
  split
  · exact ⟨⟨rfl, rfl, fun h => by simpa using h⟩, rfl⟩
  · split
    · next hroom => exact ⟨⟨rfl, rfl, fun _ => by simp; omega⟩, rfl⟩
    · exact ⟨⟨rfl, rfl, id⟩, rfl⟩

theorem Kept.joinIncident (hx : x.engine) : Kept x D s D (joinIncident p d s) := by
  unfold Machine.joinIncident
  rcases s.incident p with _ | i
  · exact .refl x D s
  have hjoined : Kept x D s D (Machine.onIncident p (joinDz d) s) :=
    .onIncident hx (fun i => (joinDz_sameRecord d i).1) fun i => (joinDz_sameRecord d i).2
  dsimp only
  split
  · exact ((hjoined.trans (.onIncident hx)).trans (.notify _)).trans (.enterPlan hx)
  · exact hjoined

theorem Kept.takeFire (hx : x.engine) : Kept x D s D (takeFire d s) := by
  have hused : Kept x D s D (Machine.useEntry (detectionRef d) s).1 := .useOther nofun
  unfold Machine.takeFire
  rcases huse : Machine.useEntry (detectionRef d) s with ⟨t, _ | _⟩
  all_goals rw [huse] at hused
  · exact hused.trans (.askGeneral hx _)
  dsimp only
  split
  · exact hused.trans (.askGeneral hx _)
  split
  · exact hused.trans (.joinIncident hx)
  next hnone =>
  split
  · exact (hused.trans (.notify _)).trans (.askGeneral hx _)
  · next hroom =>
    exact hused.trans (.createIncident hx (Nat.lt_of_not_le hroom) fun i hi => of_decide_eq_false (findIncident_none hnone i hi))

theorem Kept.restore (hx : x.engine) : Kept x D s D (restore d s) := by
  unfold Machine.restore
  split
  · exact .onIncident hx (by exact fun i => ⟨rfl, rfl, fun h => by simpa using h⟩)
  · exact .refl x D s

/-! ### Resets (R67, R69) -/

theorem useEntry_onEngine (r : EntryRef) (f : Engine → Engine) (s : State) :
    useEntry r (s.onEngine f) = ((useEntry r s).1.onEngine f, (useEntry r s).2) := by
  have hmarked : (s.onEngine f).marked r = s.marked r := rfl
  have hpasses : (s.onEngine f).passes r = s.passes r := rfl
  unfold useEntry
  rw [hmarked, hpasses]
  split
  · rfl
  · split <;> rfl

theorem headerUsed_onEngine (f : Engine → Engine) (s : State) : headerUsed (s.onEngine f) = (headerUsed s).onEngine f :=
  congrArg Prod.fst (useEntry_onEngine headerRef f s)

/-- Demand formed anew after a change `f` of the engine that takes records away and leaves demand and timers. -/
theorem Kept.recomputeAfterReset (hx : x.engine) {q : Nat → Bool} {f : Engine → Engine}
    (hsublist : (f s.engine).incidents.Sublist s.engine.incidents) (hcounter : (f s.engine).idCounter = s.engine.idCounter)
    (hdemand : (f s.engine).demand = s.engine.demand) (hclear : (f s.engine).allClear = s.engine.allClear)
    (hformed : ∀ z < 128, q z = false → (f s.engine).formed z = s.engine.formed z)
    (hquiet : s.engine.Quiet → (f s.engine).Quiet) : Kept x D s D (recomputeAfterReset q (s.onEngine f)) := by
  have hrecomputed (start : Option Nat) {u : State} (hu : u.engine = s.engine) :
      Kept x D u D (u.onEngine fun e => (f e).recompute q start) := by
    refine .onEngine hx (fun hl => ?_) (fun hl => ?_) (.inr fun hq => ?_) <;> rw [hu] at *
    · refine demandLaw_recompute start (fun z hz hq => ?_) fun z hz => ?_
      · rw [hdemand, hl.formed z hz, hformed z hz hq]
      · rw [hdemand, hclear]
        exact hl.allClear z hz
    · exact (hl.sublist hsublist).congr rfl hcounter
    · exact hquiet hq
  unfold Machine.recomputeAfterReset
  split
  · rw [readTiming_value, headerUsed_onEngine]
    exact Kept.headerUsed.trans (hrecomputed _ (useEntry_engine _ s))
  · exact hrecomputed none rfl

theorem Kept.resetIncidentWork (hx : x.engine) {i : Incident} (hi : s.incident p = some i) :
    Kept x D s D (Machine.recomputeAfterReset (fun z => decide (i.demand.get z ≠ .none))
      (Machine.notify (.incident i.id .removed) (removeIncident p s))) := by
  refine Kept.trans (.notify (.incident i.id .removed)) (.recomputeAfterReset
    (s := Machine.notify (.incident i.id .removed) s) (f := fun e => { e with incidents := e.incidents.eraseIdx p })
    hx (List.eraseIdx_sublist ..) rfl rfl rfl (fun z _ hq => ?_) eraseIdx_quiet)
  refine formed_congr rfl (formedOf_eraseIdx fun j hj => ?_)
  rw [← Option.some.inj (hi.symm.trans hj)]
  simpa using hq

theorem foldl_notify_onEngine (ns : List Notice) (f : Engine → Engine) (s : State) :
    ns.foldl (fun t n => notify n t) (s.onEngine f) = (ns.foldl (fun t n => notify n t) s).onEngine f := by
  induction ns generalizing s with
  | nil => rfl
  | cons n ns ih => exact ih (notify n s)

/-- The engine with no incident and GENERAL clear. -/
def Engine.emptied (e : Engine) : Engine := { e with incidents := [], general := none }

/-- The notices of a RESET ALL, handed over before anything is removed. -/
def State.resetNotices (s : State) : List Notice :=
  s.engine.incidents.map (fun i => .incident i.id .removed) ++ (s.engine.general.map (.general false)).toList

theorem clearGeneral_removeAll (s : State) :
    clearGeneral (removeAll s) = (s.resetNotices.foldl (fun t n => notify n t) s).onEngine Engine.emptied := by
  have hremoved : removeAll s =
      ((s.engine.incidents.map fun i => Notice.incident i.id .removed).foldl (fun t n => notify n t) s).onEngine
        fun e => { e with incidents := [] } := by
    rw [← foldl_notify_onEngine, List.foldl_map]
    rfl
  have hengine : ∀ (ns : List Notice) (s : State), (ns.foldl (fun t n => notify n t) s).engine = s.engine := by
    intro ns
    induction ns with
    | nil => exact fun _ => rfl
    | cons n ns ih => exact fun s => ih (notify n s)
  have hgeneral : (removeAll s).engine.general = s.engine.general := by
    rw [hremoved, State.onEngine_engine, hengine]
  unfold clearGeneral State.resetNotices
  rw [hgeneral, List.foldl_append]
  rcases hcause : s.engine.general with _ | cause
  · rw [hremoved]
    refine congrArg (fun g : Engine => { List.foldl (fun t n => notify n t) s _ with engine := g }) ?_
    have hsame := hengine (s.engine.incidents.map fun i => Notice.incident i.id .removed) s
    have hclear : (List.foldl (fun t n => notify n t) s
        (s.engine.incidents.map fun i => Notice.incident i.id .removed)).engine.general = none := by rw [hsame, hcause]
    exact Engine.mk.injEq .. |>.mpr ⟨rfl, rfl, hclear, rfl, rfl⟩
  · rw [hremoved]
    rfl

theorem Kept.notices (ns : List Notice) : Kept x D s D (ns.foldl (fun t n => Machine.notify n t) s) :=
  .foldl (fun _ n => .notify n) ns s

theorem Kept.resetAllWork (hx : x.engine) :
    Kept x D s D (Machine.recomputeAfterReset (fun _ => true) (clearGeneral (removeAll s))) := by
  rw [clearGeneral_removeAll]
  exact (Kept.notices _).trans (.recomputeAfterReset hx (List.nil_sublist _) rfl rfl rfl (fun _ _ hq => nomatch hq)
    fun _ => ⟨rfl, rfl⟩)

theorem Kept.stopTimers (hx : x.engine) : Kept x D s D (s.onEngine fun e => { e with allClear := .const 0 }) :=
  .onEngine hx (fun hl => ⟨hl.formed, fun _ hz h => absurd (Tab.get_const 0 hz) h⟩) (·.congr rfl rfl) (.inr id)

/-! ### Events of the engine, with the hand-over (R73) -/

theorem Kept.engineEvent (hx : x.plan) {f : State → State} (hf : Kept x D s D (f s)) :
    Kept x D s D (engineEvent f s) := by
  unfold Machine.engineEvent
  dsimp only
  split
  · exact hf
  · exact hf.trans (.takePlanClaims hx _)

theorem mem_planChanges {before after : Engine} {c : Nat × Option PlanKind} :
    c ∈ planChanges before after ↔
      c.1 < 128 ∧ before.planClaim c.1 ≠ after.planClaim c.1 ∧ c.2 = after.planClaim c.1 := by
  unfold planChanges
  rw [List.mem_map]
  constructor
  · rintro ⟨z, hz, rfl⟩
    obtain ⟨hlt, hne⟩ := mem_indices.mp hz
    exact ⟨hlt, of_decide_eq_true hne, rfl⟩
  · rintro ⟨hlt, hne, hkind⟩
    exact ⟨c.1, mem_indices.mpr ⟨hlt, decide_eq_true hne⟩, by rw [← hkind]⟩

theorem takePlanClaims_planClaims (changes : List (Nat × Option PlanKind)) (s : State) :
    (takePlanClaims changes s).arbiter.planClaims = changes.foldl (fun p c => p.set c.1 c.2) s.arbiter.planClaims :=
  (Kept.choiceEvent (x := ⟨False, False, False, False⟩) (D := .empty) False.elim).plan id

/-- A change handed over is held by the arbiter, where all changes of its zone agree. -/
theorem get_foldl_set_changed {α : Type} [Inhabited α] {n : Nat} {changes : List (Nat × α)} (p : Tab α n) {z : Nat} {a : α}
    (hz : z < n) (hmem : ∃ c ∈ changes, c.1 = z) (hagree : ∀ c ∈ changes, c.1 = z → c.2 = a) :
    (changes.foldl (fun p c => p.set c.1 c.2) p).get z = a := by
  induction changes generalizing p with
  | nil => simp at hmem
  | cons c changes ih =>
    rw [List.foldl_cons]
    by_cases hlater : ∃ d ∈ changes, d.1 = z
    · exact ih _ hlater fun d hd => hagree d (List.mem_cons_of_mem _ hd)
    · have hlater' : ∀ d ∈ changes, d.1 ≠ z := fun d hd hdz => hlater ⟨d, hd, hdz⟩
      obtain ⟨d, hd, hdz⟩ := hmem
      rcases List.mem_cons.mp hd with rfl | hd
      · rw [get_foldl_set_unchanged _ _ hlater', hdz, Tab.get_set_self _ _ hz]
        exact hagree d List.mem_cons_self hdz
      · exact absurd hdz (hlater' d hd)

theorem takePlanClaims_engine (changes : List (Nat × Option PlanKind)) (s : State) :
    (takePlanClaims changes s).engine = s.engine := (takePlanClaims_worked changes s).engine

/-- After an event of the engine the arbiter holds the plan claims that the engine forms. -/
theorem PlanClaimLaw.engineEvent {f : State → State} (h : PlanClaimLaw s)
    (hf : (f s).arbiter.planClaims = s.arbiter.planClaims) : PlanClaimLaw (engineEvent f s) := by
  unfold Machine.engineEvent
  dsimp only
  have hsame : ∀ z < 128, (∀ c ∈ planChanges s.engine (f s).engine, c.1 ≠ z) →
      s.engine.planClaim z = (f s).engine.planClaim z := fun z hz hno => by
    refine Classical.byContradiction fun hne => ?_
    exact hno (z, (f s).engine.planClaim z) (mem_planChanges.mpr ⟨hz, hne, rfl⟩) rfl
  split
  · next hnil =>
    intro z hz
    rw [hf, h z hz, hsame z hz (by simp [hnil])]
  · intro z hz
    rw [takePlanClaims_planClaims, takePlanClaims_engine]
    by_cases hmem : ∃ c ∈ planChanges s.engine (f s).engine, c.1 = z
    · refine get_foldl_set_changed _ hz hmem fun c hc hcz => ?_
      rw [← hcz]
      exact (mem_planChanges.mp hc).2.2
    · have hno : ∀ c ∈ planChanges s.engine (f s).engine, c.1 ≠ z := fun c hc hcz => hmem ⟨c, hc, hcz⟩
      rw [get_foldl_set_unchanged _ _ hno, hf, h z hz, hsame z hz hno]

end Sys2Proof.Machine
end

section
/-! SUPPORT. Events: work at whose end every choice is made, no owed step waits in IDLE and the plan claims follow the demand. The
common handling of requests and claims is one where its owner is (R85, R129, R152, R155). -/

namespace Sys2Proof.Machine

variable {x : Reach} {D E : Zones} {s t u : State} {z p d : Nat}

/-! ### Events -/

/-- Work that may change any block. -/
def Reach.all : Reach := ⟨True, True, True, True⟩

/-- Work at whose end every law between commands is kept. -/
structure Event (s t : State) : Prop where
  kept : Kept .all .empty s .empty t
  owed : OwedLaw s.sequencer → OwedLaw t.sequencer
  plan : PlanClaimLaw s → PlanClaimLaw t

theorem Event.refl (s : State) : Event s s := ⟨.refl _ _ s, id, id⟩

theorem Event.trans (h : Event s t) (g : Event t u) : Event s u := ⟨h.kept.trans g.kept, g.owed ∘ h.owed, g.plan ∘ h.plan⟩

theorem Event.foldl {α : Type} {f : State → α → State} (h : ∀ t a, Event t (f t a)) (l : List α) (s : State) :
    Event s (l.foldl f s) := by
  induction l generalizing s with
  | nil => exact .refl s
  | cons a l ih => exact (h s a).trans (ih (f s a))

theorem PlanClaimLaw.congr (h : PlanClaimLaw s) (hplan : t.arbiter.planClaims = s.arbiter.planClaims)
    (hengine : ∀ z < 128, t.engine.planClaim z = s.engine.planClaim z) : PlanClaimLaw t := fun z hz => by
  rw [hplan, hengine z hz]
  exact h z hz

/-- Work on any blocks but the plan claims, the Sequencer and the Incident Engine. -/
theorem Event.of_kept (h : ∀ x : Reach, Kept x .empty s .empty t) : Event s t := by
  have hstays := h ⟨False, False, False, False⟩
  refine ⟨h .all, fun howed => hstays.sequencer id ▸ howed, fun hplan => hplan.congr (hstays.plan id) fun z _ => ?_⟩
  rw [hstays.engine id]

/-- Work of the Sequencer that leaves no owed step waiting. -/
theorem Event.of_sequencer (h : ∀ x : Reach, x.sequencer → Kept x .empty s .empty t)
    (howed : OwedLaw s.sequencer → OwedLaw t.sequencer) : Event s t := by
  have hstays := h ⟨False, True, False, False⟩ trivial
  refine ⟨h .all trivial, howed, fun hplan => hplan.congr (hstays.plan id) fun z _ => ?_⟩
  rw [hstays.engine id]

/-- Work of the Incident Engine that leaves the plan claims it forms. -/
theorem Event.of_engine (h : ∀ x : Reach, x.engine → Kept x .empty s .empty t)
    (hplan : t.engine.demand = s.engine.demand ∧ t.engine.allClear = s.engine.allClear) : Event s t := by
  have hstays := h ⟨False, False, True, False⟩ trivial
  refine ⟨h .all trivial, fun howed => hstays.sequencer id ▸ howed, fun hlaw => hlaw.congr (hstays.plan id) fun z _ => ?_⟩
  rw [Engine.planClaim, Engine.planClaim, hplan.1, hplan.2]

/-- An event of the Incident Engine with its hand-over. -/
theorem Event.engineEvent {f : State → State} (h : ∀ x : Reach, x.engine → Kept x .empty s .empty (f s)) :
    Event s (engineEvent f s) := by
  have hstays := (h ⟨False, False, True, False⟩ trivial)
  have hwork := Kept.engineEvent (x := ⟨True, False, True, False⟩) trivial (h _ trivial)
  exact ⟨.engineEvent trivial (h .all trivial), fun howed => hwork.sequencer id ▸ howed,
    fun hplan => hplan.engineEvent (hstays.plan id)⟩

theorem Event.drain (n : Nat) : Event s (drain n s) := .of_sequencer (fun _ hx => .drain hx) owedLaw_drain

/-! ### Places reserved and filled (R152) -/

/-- Work that starts with a place reserved for the command in hand and ends with no further place waiting. -/
theorem Kept.of_reserved {q : Sender} (hroom : s.router.places.length < 8) (h : Kept x D (reservePlace q s) E t)
    (hhand : t.router.hands ≤ s.router.hands) : Kept x D s E t := by
  have hzones : ZonesKept D s D (reservePlace q s) := SameZones.kept ⟨rfl, fun _ _ => rfl, rfl⟩
  exact
    { h.toBlocksKept, hzones.trans h.toZonesKept, h.toReachKept with
      router := fun hl => h.router { hl with places := by simp [reservePlace]; omega }
      hand := hhand
      zone := fun hx hz => h.zone hx ⟨hz.pointer, hz.scrub, hz.step, hz.reserved⟩
      count := fun hx hs hz hc => h.count hx (hzones.holder hs) ⟨hz.pointer, hz.scrub, hz.step, hz.reserved⟩ hc }

theorem Event.of_reserved {q : Sender} (hroom : s.router.places.length < 8) (h : Event (reservePlace q s) t)
    (hhand : t.router.hands ≤ s.router.hands) : Event s t := ⟨h.kept.of_reserved hroom hhand, h.owed, h.plan⟩

theorem hands_reservePlace (q : Sender) (s : State) : (reservePlace q s).router.hands = s.router.hands + 1 := by
  simp [Router.hands, reservePlace, Place.isHand, List.countP_append]

/-- The answer to the command in hand fills a place that waits for it. -/
theorem hands_fillPlace_command (source : Nat) (body : AnswerBody) (l : List Place) :
    (fillPlace .command source body l).countP Place.isHand = l.countP Place.isHand - 1 := by
  induction l with
  | nil => rfl
  | cons q l ih =>
    rcases q with ⟨v, q⟩ | a
    · cases v
      · rw [List.countP_cons_of_pos (l := l) rfl, Nat.add_sub_cancel]
        rfl
      · simpa [fillPlace, Place.isHand] using ih
    · simpa [fillPlace, Place.isHand] using ih

theorem Event.giveAnswer (w : Waiting) (body : AnswerBody) : Event s (giveAnswer w body s) :=
  .of_kept fun _ => .giveAnswer w body

/-- Work between the reservation of a place and the answer in it. -/
theorem Event.of_answered {q : Sender} (hroom : s.router.places.length < 8) (h : Event (reservePlace q s) t)
    (body : AnswerBody) : Event s (Machine.giveAnswer .command body t) := by
  refine (h.trans (.giveAnswer .command body)).of_reserved hroom ?_
  have hhand := h.kept.hand
  rw [hands_reservePlace] at hhand
  exact Nat.le_trans (Nat.le_of_eq (hands_fillPlace_command ..)) (by unfold Router.hands at *; omega)

/-! ### Requests (R155) -/

theorem Kept.searchAuthority (a n i : Nat) : Kept x D s D (searchAuthority a n i s).1 := by
  induction n generalizing i s with
  | zero => exact .refl x D s
  | succ n ih =>
    have hused : Kept x D s D (Machine.useEntry (authorityRef i) s).1 := .useOther nofun
    unfold Machine.searchAuthority
    rcases huse : Machine.useEntry (authorityRef i) s with ⟨t, _ | _⟩
    all_goals rw [huse] at hused
    · exact hused.trans (ih _)
    · dsimp only
      split
      · exact hused
      · split
        · exact hused
        · exact hused.trans (ih _)

theorem Kept.authorityOf (a : Nat) : Kept x D s D (authorityOf a s).1 := by
  unfold Machine.authorityOf
  split
  · exact .refl x D s
  · exact .searchAuthority _ _ _

theorem lt_of_hasPlace (h : ¬s.hasPlace = false) : s.router.places.length < 8 := by
  simpa [State.hasPlace] using h

/-- A request is an event where its owner's work is; an answer held back leaves no place waiting. -/
theorem Event.request {q : Sender} {type : Nat} {need : Authority} {refusal : List Byte}
    {owner : State → State × Reply} (howner : ∀ t, Event t (owner t).1)
    (hheld : ∀ t u, owner t = (u, none) → u.router.hands = 0) : Event s (request q type need refusal owner s) := by
  unfold Machine.request
  split
  · exact .refl s
  next hplace =>
  have hroom := lt_of_hasPlace hplace
  have hlooked : Event (reservePlace q s) (Machine.authorityOf q.station (reservePlace q s)).1 :=
    .of_kept fun _ => .authorityOf _
  rcases hlook : Machine.authorityOf q.station (reservePlace q s) with ⟨t, found⟩
  rw [hlook] at hlooked
  dsimp only
  split
  · exact hlooked.of_answered hroom _
  split
  · exact hlooked.of_answered hroom _
  have howned := hlooked.trans (howner t)
  rcases hreply : owner t with ⟨u, _ | ⟨st, data⟩⟩
  all_goals rw [hreply] at howned
  · exact howned.of_reserved hroom (Nat.le_trans (Nat.le_of_eq (hheld t u hreply)) (Nat.zero_le _))
  · exact howned.of_answered hroom _

/-- A request whose owner always answers. -/
theorem Event.requestAnswered {q : Sender} {type : Nat} {need : Authority} {refusal : List Byte}
    {owner : State → State × Reply} (howner : ∀ t, Event t (owner t).1) (hanswers : ∀ t, (owner t).2 ≠ none) :
    Event s (Machine.request q type need refusal owner s) :=
  .request howner fun t _ h => absurd (congrArg Prod.snd h) (hanswers t)

theorem Event.unknownRequest (q : Sender) (type : Nat) : Event s (unknownRequest q type s) := by
  unfold Machine.unknownRequest
  split
  · next h =>
    exact Event.of_answered (q := q) (lt_of_hasPlace (by simp [h.1])) (.refl _) _
  · exact .refl s

/-! ### Claims (R85, R86) -/

theorem Kept.acceptClaim {k station level channel : Nat} {selection : Selection} (hslot : freeSlot s = some k)
    (hfree : channelHeld s channel = false) : Kept x .empty s .empty (acceptClaim k station level channel selection s) := by
  have hk : k < 16 := List.mem_range.mp (List.mem_of_find?_eq_some hslot)
  have hnone : s.arbiter.claims.get k = none := by simpa using List.find?_some hslot
  have hplaced : Kept x .empty s .empty (Machine.placeClaim k station level channel selection s) :=
    .placeClaim hk hnone fun j hj d hd => channelHeldBeside_eq_false hfree j hj (Nat.ne_of_lt hj) d hd
  unfold Machine.acceptClaim
  split
  · refine hplaced.trans (.enterOnAir ?_)
    rw [OffAir, placeClaim_claims hk, if_pos rfl]
    rfl
  · exact hplaced.trans (.wouldWinTest _)

theorem Kept.decideClaim (station level channel : Nat) (field : SelectionField) :
    Kept x .empty s .empty (decideClaim station level channel field s).1 := by
  unfold Machine.decideClaim
  split
  · exact .refl x .empty s
  split
  · exact .refl x .empty s
  split
  · exact .refl x .empty s
  next hfree =>
  split
  · exact .refl x .empty s
  · next hslot => exact .acceptClaim hslot (Bool.eq_false_iff.mpr hfree)

theorem Kept.judgeClaim (station level channel : Nat) (field : SelectionField) :
    Kept x .empty s .empty (judgeClaim station level channel field s).1 := by
  have hlooked : Kept x .empty s .empty (Machine.authorityOf station s).1 := .authorityOf _
  unfold Machine.judgeClaim
  rcases hlook : Machine.authorityOf station s with ⟨t, found⟩
  rw [hlook] at hlooked
  dsimp only
  split
  · exact hlooked
  split
  · exact hlooked
  · exact hlooked.trans (.decideClaim ..)

theorem Event.claim (q : Sender) (level channel : Nat) (field : SelectionField) : Event s (claim q level channel field s) := by
  unfold Machine.claim
  split
  · exact .refl s
  · next hplace =>
    exact Event.of_answered (lt_of_hasPlace hplace) (.of_kept fun _ => .judgeClaim ..) _

/-! ### Officer controls (R61 to R69) -/

theorem Event.onNamed {f : Nat → Incident → State → State × Status} (id : Nat)
    (hf : ∀ p i t, t.incident p = some i → Event t (f p i t).1) : Event s (onNamed id f s).1 := by
  unfold Machine.onNamed
  split
  · exact .refl s
  split
  · exact .refl s
  · next hi => exact hf _ _ s hi

theorem onNamed_answers (id : Nat) (f : Nat → Incident → State → State × Status) (s : State) : (onNamed id f s).2 ≠ none := by
  unfold Machine.onNamed
  split
  · nofun
  split
  · nofun
  · nofun

theorem Event.namedControl {f : Nat → Incident → State → State × Status} (type : Nat) (q : Sender) (id : Nat)
    (hf : ∀ p i t, t.incident p = some i → Event t (f p i t).1) : Event s (namedControl type f q id s) :=
  .requestAnswered (fun _ => .onNamed id hf) (onNamed_answers id f)

theorem Event.wholeControl {f : State → State} (type : Nat) (q : Sender) (hf : ∀ t, Event t (f t)) :
    Event s (wholeControl type f q s) := .requestAnswered hf fun _ => nofun

theorem Event.hold (q : Sender) (id : Nat) : Event s (holdRequest q id s) :=
  .namedControl 14 q id fun p i t _ => by
    unfold holdIncident
    split
    · exact .of_engine (fun x hx => (Kept.onIncident hx).trans (.notify _)) ⟨rfl, rfl⟩
    · exact .refl t

theorem Event.resume (q : Sender) (id : Nat) : Event s (resumeRequest q id s) :=
  .namedControl 15 q id fun p i t _ => by
    unfold resumeIncident
    split
    · dsimp only
      refine Event.engineEvent fun x hx => ?_
      refine Kept.trans (Kept.trans ?_ (.notify _)) (.dueCheck hx _)
      exact .onIncident hx
    · exact .refl t

theorem Kept.advanceStep (hx : x.engine) (k : Nat) : Kept x D s D (advanceStep p k s) := by
  have happlied : Kept x D s D (Machine.applyStep p k s).1 := .applyStep hx k
  unfold Machine.advanceStep
  rcases happly : Machine.applyStep p k s with ⟨t, _ | _⟩
  all_goals rw [happly] at happlied
  · exact happlied
  · exact happlied.trans (.onIncident hx)

theorem Event.advance (q : Sender) (id : Nat) : Event s (advanceRequest q id s) :=
  .namedControl 16 q id fun p i t _ => by
    unfold advanceIncident
    split
    · exact .refl t
    · split
      · exact .refl t
      · exact .engineEvent fun x hx => .advanceStep hx _

theorem Event.resetIncident (q : Sender) (id : Nat) : Event s (resetIncidentRequest q id s) :=
  .namedControl 17 q id fun p i t hi => by
    unfold resetIncidentAt
    dsimp only
    refine Event.engineEvent fun x hx => ?_
    exact .resetIncidentWork hx hi

theorem Event.evacuateAll (q : Sender) : Event s (evacuateAllRequest q s) :=
  .wholeControl 18 q fun _ => .engineEvent fun _ hx => .askGeneral hx _

theorem Event.resetAll (q : Sender) : Event s (resetAllRequest q s) :=
  .wholeControl 19 q fun _ => .engineEvent fun _ hx => .resetAllWork hx

theorem Event.fire : Event s (fire d s) := by
  unfold Machine.fire
  split
  · exact .refl s
  · exact .engineEvent fun _ hx => .takeFire hx

theorem restore_engine (d : Nat) (s : State) :
    (restore d s).engine.demand = s.engine.demand ∧ (restore d s).engine.allClear = s.engine.allClear := by
  unfold restore
  split <;> exact ⟨rfl, rfl⟩

theorem Event.restore : Event s (restore d s) := .of_engine (fun _ hx => .restore hx) (restore_engine d s)

theorem Event.dfault : Event s (dfault d s) := by
  unfold Machine.dfault
  split
  · exact .refl s
  · exact .of_kept fun _ => .addFault _

theorem Event.dfaultClear : Event s (dfaultClear d s) := by
  unfold Machine.dfaultClear
  split
  · exact .refl s
  · exact .of_kept fun _ => .removeFault _

theorem Event.engineTick : Event s (engineTick s) :=
  .engineEvent fun _ hx => (Kept.lowerAllClear hx).trans (.tickIncidents hx _ _)

theorem Event.expireNamed (id : Nat) : Event s (expireNamed id s) := by
  unfold Machine.expireNamed
  split
  · exact .engineEvent fun _ hx => .expireIncident hx
  · exact .refl s

/-- Where the plan claims follow the demand, the end of an all-clear timer has nothing left to hand over. -/
theorem Event.endAllClear : Event s (endAllClear z s) := by
  unfold Machine.endAllClear
  split
  · next h =>
    have hwork : ∀ x : Reach, x.plan → Kept x .empty s .empty (Machine.takePlanClaims [(z, none)] s) := fun _ hx => .takePlanClaims hx _
    refine ⟨hwork .all trivial, fun howed => (hwork ⟨True, False, False, False⟩ trivial).sequencer id ▸ howed,
      fun hlaw y hy => ?_⟩
    rw [takePlanClaims_planClaims, takePlanClaims_engine]
    show (s.arbiter.planClaims.set z none).get y = _
    by_cases hzy : z = y
    · subst hzy
      rw [Tab.get_set_self _ _ hy, h.1]
    · rw [Tab.get_set_ne _ _ hzy, hlaw y hy]
  · exact .refl s

theorem Event.stopAllClear : Event s (stopAllClear s) := .engineEvent fun _ hx => .stopTimers hx

end Sys2Proof.Machine
end

section
/-! SUPPORT. The edit transaction, the Cell Router's queues, the ports and the frame timer: every event of the part keeps the laws. -/

namespace Sys2Proof.Machine

variable {x : Reach} {D : Zones} {s t : State} {z : Nat}

/-! ### The edit transaction (R2, R3, R161 to R165) -/

theorem differing_lt {α : Type} [DecidableEq α] {altered : Nat → Bool} {k n : Nat} {a b : List α}
    (h : n ∈ differing altered k a b) : n < k + a.length := by
  induction a generalizing k b with
  | nil => cases b <;> cases h
  | cons a as ih =>
    cases b with
    | nil => cases h
    | cons b bs =>
      have hlater (hn : n ∈ differing altered (k + 1) as bs) : n < k + (a :: as).length := by
        have := ih hn
        rw [List.length_cons]
        omega
      unfold differing at h
      split at h
      · exact hlater h
      · rcases List.mem_cons.mp h with rfl | h
        · rw [List.length_cons]
          omega
        · exact hlater h

theorem failingIn_table {r : EntryRef} {table : TableName} (h : r ∈ failingIn s table) : r.table = table := by
  obtain ⟨i, -, rfl⟩ := List.mem_map.mp h
  rfl

theorem failing_zoneRecord {r : EntryRef} (h : r ∈ failing s) (ht : r.table = .zoneRecord) : r.index < 128 := by
  obtain ⟨table, -, hr⟩ := List.mem_flatMap.mp h
  obtain rfl : .zoneRecord = table := ht.symm.trans (failingIn_table hr)
  obtain ⟨i, hi, rfl⟩ := List.mem_map.mp hr
  have := differing_lt hi
  rw [s.tables.fields.zones.size] at this
  simpa using this

theorem Kept.markFailing : Kept x D s D (markFailing s) := by
  have hwalk : ∀ l : List EntryRef, (∀ r ∈ l, r ∈ failing s) →
      ∀ t, Kept x D t D (l.foldl (fun t r => (Machine.useAny r t).1) t) := by
    intro l
    induction l with
    | nil => exact fun _ t => .refl x D t
    | cons r l ih =>
      intro hl t
      exact Kept.trans (.useAny fun _ ht => failing_zoneRecord (hl r List.mem_cons_self) ht)
        (ih (fun q hq => hl q (List.mem_cons_of_mem _ hq)) _)
  exact hwalk _ (fun r hr => (List.mem_filter.mp hr).1) s

theorem markFailing_worked (s : State) : Worked s (markFailing s) := .foldl (fun t r => useAny_worked r t) _ s

theorem Kept.editBegin (owner : Nat) : Kept x D s D (editBegin owner s).1 := by
  unfold Machine.editBegin
  split
  · exact .refl x D s
  split
  · exact .refl x D s
  · next hquiet =>
    refine Kept.markFailing.trans (.setEdit fun _ => .inr ?_)
    rw [quiet_iff, (markFailing_worked s).engine, ← quiet_iff]
    simpa using hquiet

theorem writeCheck_edit {station table index : Nat} {name : TableName} {edit : Edit}
    (h : writeCheck station table index s = .ok (name, edit)) : s.tables.edit = some edit := by
  unfold writeCheck at h
  split at h
  · cases h
  split at h
  · cases h
  split at h
  · cases h
  next hedit =>
  split at h
  · cases h
  split at h
  · cases h
  · rw [hedit, (Prod.mk.inj (Except.ok.inj h)).2]

/-- An edit in hand is changed. -/
theorem Kept.changeEdit {edit : Edit} (new : Option Edit) (h : s.tables.edit = some edit) : Kept x D s D (s.setEdit new) :=
  .setEdit fun _ => .inl (by rw [h]; rfl)

theorem Kept.writeEntry (station table index : Nat) (contents : List Byte) :
    Kept x D s D (writeEntry station table index contents s).1 := by
  unfold Machine.writeEntry
  split
  · exact .refl x D s
  · next hcheck =>
    split
    · exact .changeEdit _ (writeCheck_edit hcheck)
    · exact .changeEdit _ (writeCheck_edit hcheck)

theorem Kept.writeLine (station table index : Nat) (contents : List Byte) :
    Kept x D s D (writeLine station table index contents s).1 := by
  unfold Machine.writeLine
  split
  · exact .refl x D s
  · next hcheck =>
    split
    · exact .changeEdit _ (writeCheck_edit hcheck)
    · exact .changeEdit _ (writeCheck_edit hcheck)

theorem hands_keepForCommit (s : State) : (keepForCommit s).router.hands = 0 := by
  show (s.router.places.map _).countP Place.isHand = 0
  rw [List.countP_map, List.countP_eq_zero]
  rintro p -
  rcases p with ⟨_ | _, q⟩ | a <;> simp [Place.isHand]

theorem Kept.keepForCommit : Kept x D s D (keepForCommit s) :=
  .onRouter (fun h => { h with places := Nat.le_trans (Nat.le_of_eq (List.length_map _)) h.places })
    (Nat.le_trans (Nat.le_of_eq (hands_keepForCommit s)) (Nat.zero_le _))

theorem Kept.editCommit (station : Nat) : Kept x D s D (editCommit station s).1 := by
  unfold Machine.editCommit
  split
  · exact .refl x D s
  next hedit =>
  split
  · exact .refl x D s
  split
  · exact .refl x D s
  · exact (Kept.changeEdit _ hedit).trans .keepForCommit

theorem editCommit_held {station : Nat} (h : editCommit station s = (t, none)) : t.router.hands = 0 := by
  unfold Machine.editCommit at h
  split at h
  · cases h
  split at h
  · cases h
  split at h
  · cases h
  · rw [← (Prod.mk.inj h).1]
    exact hands_keepForCommit _

theorem Kept.endEdit (edit : Edit) : Kept x D s D (Machine.answerEnded edit (s.setEdit none)) :=
  (Kept.setEdit (e := none) nofun).trans (.answerEnded edit)

theorem Kept.editCancel (station : Nat) : Kept x D s D (editCancel station s).1 := by
  unfold Machine.editCancel
  split
  · exact .refl x D s
  split
  · exact .refl x D s
  · exact .endEdit _

theorem Kept.expireEdit : Kept x D s D (expireEdit s) := (Kept.setEdit (e := none) nofun).trans (.notify _)

theorem Kept.leaseTick : Kept x D s D (leaseTick s) := by
  unfold Machine.leaseTick
  split
  · exact .refl x D s
  next hedit =>
  split
  · exact .expireEdit
  · exact .changeEdit _ hedit

theorem Kept.endValidation {edit : Edit} (h : s.tables.edit = some edit) : Kept x D s D (endValidation edit s) := by
  unfold Machine.endValidation
  split
  · exact (Kept.changeEdit _ h).trans (.giveAnswer _ _)
  · exact .changeEdit _ h

theorem Kept.validationFrame : Kept x D s D (validationFrame s) := by
  unfold Machine.validationFrame
  split
  · exact .refl x D s
  next hedit =>
  split
  · split
    · exact .endValidation hedit
    · exact .changeEdit _ hedit
  · exact .refl x D s

theorem Kept.installImage (edit : Edit) : Kept x D s .empty (installImage edit s) :=
  (((Kept.setTables rfl).trans (.onFaultUnit (.removeTableCorrupt _))).trans .takeBaseValues).trans (.giveAnswer _ _)

theorem Kept.installIfPassed : Kept x .empty s .empty (installIfPassed s) := by
  unfold Machine.installIfPassed
  split
  · split
    · exact .installImage _
    · exact .refl x .empty s
  · exact .refl x .empty s

/-! ### Requests of file 08 -/

theorem Kept.takeBinding (address destination : Nat) : Kept x D s D (takeBinding address destination s).1 := by
  unfold Machine.takeBinding
  split
  · exact .refl x D s
  split
  · exact .refl x D s
  · exact .onRouter (f := fun r => { r with address := address, destination := some destination }) fun h =>
      ⟨h.sToZ, h.zToS, h.places, h.confirms, h.oneEach, h.slots, h.cells, h.segments⟩

theorem takeBinding_answers (address destination : Nat) (s : State) : (takeBinding address destination s).2 ≠ none := by
  unfold takeBinding
  split
  · nofun
  split <;> nofun

theorem editBegin_answers (owner : Nat) (s : State) : (editBegin owner s).2 ≠ none := by
  unfold editBegin
  split
  · nofun
  split <;> nofun

theorem writeEntry_answers (station table index : Nat) (contents : List Byte) (s : State) :
    (writeEntry station table index contents s).2 ≠ none := by
  unfold writeEntry
  split
  · nofun
  split <;> nofun

theorem writeLine_answers (station table index : Nat) (contents : List Byte) (s : State) :
    (writeLine station table index contents s).2 ≠ none := by
  unfold writeLine
  split
  · nofun
  split <;> nofun

theorem editCancel_answers (station : Nat) (s : State) : (editCancel station s).2 ≠ none := by
  unfold editCancel
  split
  · nofun
  split <;> nofun

theorem Event.bind (q : Sender) (address destination : Nat) : Event s (bindRequest q address destination s) :=
  .requestAnswered (fun _ => .of_kept fun _ => .takeBinding ..) (takeBinding_answers address destination)

/-- A request that only reads. -/
theorem Event.reading (q : Sender) (type : Nat) (f : State → Status × List Byte) :
    Event s (Machine.request q type .monitor [] (Machine.reading f) s) := .requestAnswered (fun t => .refl t) fun _ => nofun

theorem Event.editBegin (q : Sender) : Event s (editBeginRequest q s) :=
  .requestAnswered (fun _ => .of_kept fun _ => .editBegin _) (editBegin_answers _)

theorem Event.writeEntry (q : Sender) (table index : Nat) (contents : List Byte) :
    Event s (writeEntryRequest q table index contents s) :=
  .requestAnswered (fun _ => .of_kept fun _ => .writeEntry ..) (writeEntry_answers q.station table index contents)

theorem Event.writeLine (q : Sender) (table index : Nat) (contents : List Byte) :
    Event s (writeLineRequest q table index contents s) :=
  .requestAnswered (fun _ => .of_kept fun _ => .writeLine ..) (writeLine_answers q.station table index contents)

theorem Event.editCommit (q : Sender) : Event s (editCommitRequest q s) :=
  .request (fun _ => .of_kept fun _ => .editCommit _) fun _ _ => editCommit_held

theorem Event.editCancel (q : Sender) : Event s (editCancelRequest q s) :=
  .requestAnswered (fun _ => .of_kept fun _ => .editCancel _) (editCancel_answers _)

theorem Event.setMask (q : Sender) (first count value : Nat) : Event s (setMaskRequest q first count value s) :=
  .requestAnswered (fun t => .of_kept fun _ => Kept.setMask first count value (s := t)) fun _ => nofun

theorem Kept.setTrims (first count value : Nat) : Kept x D s D (setTrims first count value s) := .onCrosspoint

theorem Kept.setTrim (first count value : Nat) : Kept x D s D (setTrim first count value s).1 := by
  unfold Machine.setTrim
  split
  · exact .refl x D s
  · exact .setTrims ..

theorem Event.setTrim (q : Sender) (first count value : Nat) : Event s (setTrimRequest q first count value s) :=
  .requestAnswered (fun t => .of_kept fun _ => Kept.setTrim first count value (s := t)) fun _ => nofun

theorem Event.sweep (q : Sender) (count : Nat) : Event s (sweepRequest q count s) :=
  .requestAnswered (fun t => .of_sequencer (fun _ hx => Kept.sweep hx count (s := t)) (owedLaw_sweep count))
    fun _ => nofun

theorem FaultUnitLaw.enable {u : FaultUnit} (h : FaultUnitLaw u) : FaultUnitLaw { u with enabled := true } :=
  { h with disabled := nofun }

theorem FaultUnitLaw.emptied {u : FaultUnit} (b : Bool) (h : FaultUnitLaw u) :
    FaultUnitLaw { u with enabled := b, queue := [], overrun := false } :=
  { h with queueSize := Nat.zero_le _, overrun := nofun, disabled := fun _ => rfl }

theorem Kept.disableNotices : Kept x D s D (disableNotices s) := .onFaultUnit (.emptied false)

theorem Event.enableNotices (q : Sender) : Event s (enableNoticesRequest q s) :=
  .requestAnswered (fun _ => .of_kept fun _ => (Kept.onFaultUnit .enable).trans (.notify _)) fun _ => nofun

theorem Event.disableNotices (q : Sender) : Event s (disableNoticesRequest q s) :=
  .requestAnswered (fun _ => .of_kept fun _ => .disableNotices) fun _ => nofun

/-! ### RESTART (R167) -/

theorem Kept.releaseAny : Kept x D s D (releaseAny s) := by
  unfold Machine.releaseAny
  split
  · exact .releaseReservation
  · exact .refl x D s

theorem releaseAny_sequencer (s : State) : (releaseAny s).sequencer = s.sequencer := by
  unfold releaseAny
  split
  · exact releaseReservation_sequencer _ s
  · rfl

theorem Event.restartSequencer : Event s (restartSequencer s) := by
  refine .of_sequencer (fun x hx => Kept.trans (.onSequencer hx fun _ hz => ?_) .releaseAny) fun _ => ?_
  · exact ⟨Nat.zero_lt_succ _, Nat.zero_lt_succ _, fun hidle => absurd rfl hidle, hz.reserved⟩
  · rw [Machine.restartSequencer, releaseAny_sequencer]
    exact fun _ => ⟨rfl, rfl⟩

theorem Kept.rebuildFaults : Kept x D s D (rebuildFaults s) := by
  refine Kept.trans (.onFaultUnit fun h => ?_) (.foldl (fun _ f => .addFault f) _ _)
  exact { h with listSize := Nat.zero_le _, noTwoAlike := List.nodup_nil, overflow := nofun }

theorem Kept.emptyConfirms : Kept x D s D (emptyConfirms s) :=
  .onRouter (fun h => { h with confirms := Nat.zero_le _, oneEach := List.nodup_nil, slots := nofun }) (Nat.le_refl _)

theorem Kept.dropAll (reason : DropReason) : Kept x D s D (dropAll reason s) := .dropClaims _ _

theorem Kept.closeEdit : Kept x D s D (closeEdit s) := by
  unfold Machine.closeEdit
  split
  · exact .refl x D s
  · exact .endEdit _

theorem Kept.emptyNotices : Kept x D s D (emptyNotices s) := .onFaultUnit (.emptied _)

theorem Event.restart : Event s (restart s) := by
  have hclosed : Event s (Machine.closeEdit (Machine.dropAll .restart s)) :=
    .of_kept fun _ => (Kept.dropAll _).trans .closeEdit
  have hrebuilt {t : State} : Event t (emptyConfirms (emptyNotices (rebuildFaults (takeBaseValues t)))) :=
    .of_kept fun _ => ((Kept.takeBaseValues.trans .rebuildFaults).trans .emptyNotices).trans .emptyConfirms
  exact ((hclosed.trans .restartSequencer).trans .stopAllClear).trans hrebuilt

theorem Event.restartRequest (q : Sender) : Event s (restartRequest q s) := by
  refine .requestAnswered (fun t => ?_) fun t => ?_
  · split
    · exact .restart
    · exact .refl t
  · split <;> nofun

/-! ### Cells (R149 to R153) -/

theorem cell_length {c : List Byte} (h : cellGood c = true) : c.length = 64 := by
  unfold cellGood frameGood at h
  simp only [Bool.and_eq_true, decide_eq_true_eq] at h
  exact h.1

theorem Kept.forwardSToZ {c : List Byte} (h : c.length = 64) : Kept x D s D (forwardSToZ c s) := by
  unfold Machine.forwardSToZ
  split
  · next hroom =>
    refine .onRouter (fun hl => { hl with sToZ := ?_, cells := fun d hd => ?_ }) (Nat.le_refl _)
    · rw [List.length_append]
      exact hroom
    · simp only [List.mem_append, List.mem_singleton] at hd
      rcases hd with (hd | rfl) | hd
      · exact hl.cells d (List.mem_append_left _ hd)
      · exact h
      · exact hl.cells d (List.mem_append_right _ hd)
  · exact .refl x D s

theorem Kept.forwardZToS {c : List Byte} (h : c.length = 64) : Kept x D s D (forwardZToS c s) := by
  unfold Machine.forwardZToS
  split
  · next hroom =>
    refine .onRouter (fun hl => { hl with zToS := ?_, cells := fun d hd => ?_ }) (Nat.le_refl _)
    · rw [List.length_append]
      exact hroom.2
    · simp only [List.mem_append, List.mem_singleton] at hd
      rcases hd with hd | hd | rfl
      · exact hl.cells d (List.mem_append_left _ hd)
      · exact hl.cells d (List.mem_append_right _ hd)
      · exact h
  · exact .refl x D s

theorem segmentsOf_length {c : List Byte} (h : c.length = 64) : ∀ g ∈ segmentsOf c, g.bytes.length = 16 := by
  intro g hg
  simp only [segmentsOf, List.mem_cons, List.not_mem_nil, or_false] at hg
  rcases hg with rfl | rfl | rfl | rfl <;> simp [h]

theorem makeCell_length (destination source type tag : Nat) (payload : List Byte) :
    (makeCell destination source type tag payload).length = 64 :=
  cell_length (cellGood_makeCell ..)

theorem answerCell_length (a : Answer) : (answerCell a).length = 64 := by
  unfold answerCell
  split <;> exact makeCell_length ..

/-- A cell starts on the S lane, taken from a queue that keeps its law. -/
theorem RouterLaw.start {r : Router} {c : List Byte} (h : RouterLaw r) (hc : c.length = 64) :
    RouterLaw { r with sSending := segmentsOf c } :=
  { h with
    segments := fun g hg => (List.mem_append.mp hg).elim (segmentsOf_length hc g) fun hg =>
      h.segments g (List.mem_append_right _ hg) }

theorem dropStale_suffix (s : State) (l : List ConfirmRequest) : (dropStale s l).IsSuffix l := by
  induction l with
  | nil => exact List.suffix_refl _
  | cons c l ih =>
    unfold dropStale
    split
    · exact List.suffix_refl _
    · exact ih.trans (List.suffix_cons c l)

theorem RouterLaw.withConfirms {r : Router} {l : List ConfirmRequest} (h : RouterLaw r) (hl : l.Sublist r.confirms) :
    RouterLaw { r with confirms := l } :=
  { h with
    confirms := Nat.le_trans hl.length_le h.confirms
    oneEach := h.oneEach.sublist (hl.map _)
    slots := fun c hc => h.slots c (hl.subset hc) }

theorem FaultUnitLaw.afterTake {u : FaultUnit} {q : QueuedNotice} {rest : List QueuedNotice} (h : FaultUnitLaw u)
    (hqueue : u.queue = q :: rest) : FaultUnitLaw (u.afterTake rest) := by
  have henabled : u.enabled = true := by
    refine Classical.byContradiction fun hno => ?_
    rw [h.disabled (Bool.eq_false_iff.mpr hno)] at hqueue
    cases hqueue
  have hsize : rest.length < 32 := by
    have := h.queueSize
    rw [hqueue, List.length_cons] at this
    omega
  unfold FaultUnit.afterTake
  dsimp only
  split
  · next hempty =>
    refine ⟨h.listSize, h.noTwoAlike, h.overflow, ?_, nofun, fun hno => absurd (henabled.symm.trans hno) nofun⟩
    simp [FaultUnit.enter, hempty.1]
  · next hno =>
    exact ⟨h.listSize, h.noTwoAlike, h.overflow, Nat.le_of_lt hsize, fun hover hnil => hno ⟨hnil, hover⟩,
      fun hoff => absurd (henabled.symm.trans hoff) nofun⟩

theorem Kept.chooseNotice : Kept x D s D (chooseNotice s) := by
  unfold Machine.chooseNotice
  split
  · exact .refl x D s
  · next hqueue =>
    exact (Kept.onFaultUnit fun h => h.afterTake hqueue).trans (.onRouter (·.start (makeCell_length ..)) (Nat.le_refl _))

theorem Kept.chooseForward : Kept x D s D (chooseForward s) := by
  unfold Machine.chooseForward
  split
  · next c rest hqueue =>
    refine .onRouter (f := fun r => { r with zToS := rest, sSending := segmentsOf c }) (fun h => ?_) (Nat.le_refl _)
    have hcell : c.length = 64 := h.cells c (by simp [hqueue])
    have hsize := h.zToS
    rw [hqueue, List.length_cons] at hsize
    refine { h.start hcell with zToS := (Nat.le_of_succ_le hsize), cells := fun d hd => h.cells d ?_ }
    rw [hqueue]
    rcases List.mem_append.mp hd with hd | hd
    · exact List.mem_append_left _ hd
    · exact List.mem_append_right _ (List.mem_cons_of_mem _ hd)
  · exact .chooseNotice

theorem Kept.chooseResponse : Kept x D s D (chooseResponse s) := by
  unfold Machine.chooseResponse
  split
  · next a rest hplaces =>
    refine .onRouter (f := fun r => { r with places := rest, sSending := segmentsOf (answerCell a) }) (fun h => ?_) ?_
    · have hsize := h.places
      rw [hplaces, List.length_cons] at hsize
      exact { h.start (answerCell_length a) with places := Nat.le_of_succ_le hsize }
    · unfold Router.hands
      rw [hplaces]
      exact List.countP_cons .. ▸ Nat.le_add_right _ _
  · exact .chooseForward

theorem Kept.transmitterChoice : Kept x D s D (transmitterChoice s) := by
  have hsuffix := dropStale_suffix s s.router.confirms
  unfold Machine.transmitterChoice
  split
  · exact .refl x D s
  split
  · next c rest hconfirms =>
    rw [hconfirms] at hsuffix
    have hrest : rest.Sublist s.router.confirms := (List.sublist_cons_self c rest).trans hsuffix.sublist
    exact .onRouter
      (f := fun r => { r with confirms := rest, sSending := segmentsOf (confirmCell s.router.address c) })
      (fun h => (h.withConfirms hrest).start (makeCell_length ..)) (Nat.le_refl _)
  · exact (Kept.onRouter (·.withConfirms (List.nil_sublist _)) (Nat.le_refl _)).trans .chooseResponse

/-! ### Channel presence (R115 to R117) -/

theorem Kept.changePresence (c : Nat) : Kept x D s D (changePresence c s) := by
  unfold Machine.changePresence
  have hset (p : Presence) : Kept x D s D (setPresence c p (setRun c 0 s)) :=
    (Kept.onCrosspoint).trans .onCrosspoint
  split
  · exact hset _
  · exact (hset _).trans (.removeFault _)
  · exact ((hset _).trans (.addFault _)).trans (.dropClaims _ _)

theorem Kept.takeSlot (c : Nat) (v : Sample) (bit : Bool) : Kept x D s D (takeSlot c v bit s) := by
  refine Kept.trans (t := setSample c v s) .onCrosspoint ?_
  unfold Machine.takeSlot takeBit
  split
  · split
    · exact .changePresence c
    · exact .onCrosspoint
  · exact .onCrosspoint

theorem Kept.takeSlots (l : List Byte) : Kept x D s D (takeSlots l s) := .foldl (fun _ _ => .takeSlot _ _ _) _ s

/-! ### The commands that cells carry (R149) -/

theorem Event.takeCommand (i : Instr) : Event s (takeCommand i s) := by
  unfold Machine.takeCommand
  split
  case h_1 => exact .fire
  case h_2 => exact .restore
  case h_3 => exact .dfault
  case h_4 => exact .dfaultClear
  case h_5 => exact .claim ..
  case h_6 => exact .of_kept fun _ => .release ..
  case h_7 => exact .of_kept fun _ => .answer (fun _ c hoff => .takeReady hoff c) ..
  case h_8 => exact .of_kept fun _ => .answer (fun _ c hoff => .takeDefault hoff c) ..
  case h_9 => exact .of_kept fun _ => .answer (fun _ _ _ => .dropClaims _ _) ..
  case h_10 => exact .of_kept fun _ => .answer (fun _ c hoff => .takeWait hoff c) ..
  case h_11 => exact .bind ..
  case h_12 => exact .reading ..
  case h_13 => exact .reading ..
  case h_14 => exact .reading ..
  case h_15 => exact .reading ..
  case h_16 => exact .reading ..
  case h_17 => exact .editBegin _
  case h_18 => exact .writeEntry ..
  case h_19 => exact .writeLine ..
  case h_20 => exact .editCommit _
  case h_21 => exact .editCancel _
  case h_22 => exact .setMask ..
  case h_23 => exact .setTrim ..
  case h_24 => exact .hold ..
  case h_25 => exact .resume ..
  case h_26 => exact .advance ..
  case h_27 => exact .resetIncident ..
  case h_28 => exact .evacuateAll _
  case h_29 => exact .resetAll _
  case h_30 => exact .sweep ..
  case h_31 => exact .enableNotices _
  case h_32 => exact .disableNotices _
  case h_33 => exact .restartRequest _
  case h_34 => exact .unknownRequest ..
  case h_35 => exact .refl s

theorem Event.takeCell (c : List Byte) : Event s (takeCell c s) := by
  unfold Machine.takeCell
  split
  · split
    · exact .takeCommand _
    · exact .refl s
  · exact .refl s

theorem Event.deliverCell {c : List Byte} (h : c.length = 64) : Event s (deliverCell c s) := by
  have hforward {t : State} : Event t (Machine.forwardSToZ c t) := .of_kept fun _ => .forwardSToZ h
  unfold Machine.deliverCell
  split
  · split
    · exact (Event.takeCell c).trans hforward
    · exact hforward
  · split
    · exact .takeCell c
    · exact hforward

end Sys2Proof.Machine
end

section
/-! SUPPORT. The ports and the frame timer are events, and so is every command; with that every step keeps the laws of the state. -/

namespace Sys2Proof.Machine

variable {x : Reach} {D : Zones} {s t : State} {z : Nat}

/-! ### The S-link (R105 to R112) -/

theorem Event.takeSlots (l : List Byte) : Event s (takeSlots l s) := .of_kept fun _ => .takeSlots l

theorem Kept.silence : Kept x D s D (silence s) := .onCrosspoint

theorem Kept.sLinkUp : Kept x D s D (sLinkUp s) :=
  (((Kept.onSPort _).trans (.onTimer _)).trans (.removeFault _)).trans
    (.onCrosspoint (f := fun x => { x with presence := .const .absent, runs := .const 0 }))

theorem Kept.huntFailed : Kept x D s D (huntFailed s) := .onSPort _

theorem RouterLaw.linkLost {r : Router} (h : RouterLaw r) :
    RouterLaw { r with zToS := [], places := [], confirms := [], sSending := [] } where
  sToZ := h.sToZ
  zToS := Nat.zero_le _
  places := Nat.zero_le _
  confirms := Nat.zero_le _
  oneEach := List.nodup_nil
  slots := nofun
  cells c hc := h.cells c (List.mem_append_left _ (by simpa using hc))
  segments g hg := h.segments g (List.mem_append_right _ hg)

theorem Kept.routerLinkLost : Kept x D s D (routerLinkLost s) := .onRouter .linkLost (Nat.zero_le _)

theorem Kept.crosspointLinkLost : Kept x D s D (crosspointLinkLost s) :=
  Kept.trans (Kept.trans (t := s.onCrosspoint fun x => { x with presence := .const .lost, runs := .const 0 })
    .onCrosspoint .silence) (.foldl (fun _ _ => .removeFault _) _ _)

theorem Kept.sLinkIsland : Kept x D s D (sLinkIsland s) :=
  (((((Kept.onSPort _).trans (.onTimer _)).trans (.addFault _)).trans .routerLinkLost).trans .crosspointLinkLost).trans
    (.dropAll _)

theorem Event.sGoodInUp (last : Nat) (l : List Byte) : Event s (sGoodInUp last l s) := by
  unfold Machine.sGoodInUp
  dsimp only
  have hslots : Event s (Machine.drain drainFuel (Machine.takeSlots l (s.onSPort fun p => { p with failedRun := 0 }))) :=
    ((Event.of_kept fun _ => .onSPort _).trans (.takeSlots l)).trans (.drain _)
  generalize Machine.drain drainFuel (Machine.takeSlots l (s.onSPort fun p => { p with failedRun := 0 })) = t at hslots ⊢
  rcases rebuild (segmentAt l 69) (afterNumber (byteAt l 0) last t.sPort.partialCell) with ⟨held, _ | c⟩
  · exact hslots.trans (.of_kept fun _ => .onSPort _)
  · dsimp only
    split
    · next hgood =>
      exact (hslots.trans (.of_kept fun _ => .onSPort fun p => { p with partialCell := held })).trans
        (.deliverCell (cell_length hgood))
    · exact hslots.trans (.of_kept fun _ => .onSPort _)

theorem Kept.sFailInUp : Kept x D s D (sFailInUp s) := by
  unfold Machine.sFailInUp
  dsimp only
  split
  · exact ((Kept.onSPort _).trans .silence).trans .sLinkIsland
  · exact (Kept.onSPort _).trans .silence

theorem Kept.sGoodInHunt : Kept x D s D (sGoodInHunt s) := by
  unfold Machine.sGoodInHunt
  dsimp only
  split
  · exact (Kept.onSPort _).trans .sLinkUp
  · exact .onSPort _

theorem Kept.sMissInHunt : Kept x D s D (sMissInHunt s) := by
  unfold Machine.sMissInHunt
  dsimp only
  split
  · exact (Kept.onSPort _).trans .huntFailed
  · exact .onSPort _

theorem Event.sPeriodSettle (received : Option (List Byte)) : Event s (sPeriodSettle received s) := by
  have hcount (l : List Byte) : Event s (countGood l s) := .of_kept fun _ => .onSPort _
  unfold Machine.sPeriodSettle
  split
  · unfold sMissed
    split
    · exact .of_kept fun _ => .sFailInUp
    · exact .of_kept fun _ => .sMissInHunt
    · exact .refl s
  · split
    · unfold sGood
      split
      · exact (hcount _).trans (.sGoodInUp ..)
      · exact (hcount _).trans (.of_kept fun _ => .sGoodInHunt)
      · exact hcount _
    · unfold sBad
      split
      · exact .of_kept fun _ => .sFailInUp
      · exact .of_kept fun _ => .onSPort _
      · exact .refl s

/-! ### The Z-link (R113, R114) -/

theorem Event.setAvailable (b : Bool) : Event s (setAvailable b s) :=
  .of_sequencer (fun _ hx => .setAvailable hx b) fun h => h

theorem Event.zLinkUp : Event s (zLinkUp s) :=
  (Event.of_kept fun _ => (Kept.onZPort _).trans (.removeFault _)).trans (.setAvailable true)

theorem Event.reportsAbsent : Event s (reportsAbsent s) := .of_sequencer (fun _ hx => .reportsAbsent hx) owedLaw_reportsAbsent

theorem Event.returnFrameArrival : Event s (returnFrameArrival s) :=
  .of_sequencer (fun _ hx => .returnFrameArrival hx) owedLaw_returnFrameArrival

theorem Event.zLinkDown : Event s (zLinkDown s) :=
  (Event.of_kept fun _ => ((Kept.onZPort _).trans (.addFault _)).trans (.onZPort _)).trans .reportsAbsent

theorem Event.zGoodInUp (last : Nat) (l : List Byte) : Event s (zGoodInUp last l s) := by
  unfold Machine.zGoodInUp
  rcases rebuild (segmentAt l 257) (afterNumber (byteAt l 0) last s.zPort.partialCell) with ⟨held, _ | c⟩
  · exact (Event.of_kept fun _ => .onZPort _).trans .returnFrameArrival
  · dsimp only
    split
    · next hgood =>
      exact (Event.of_kept fun _ => (Kept.onZPort _).trans (.forwardZToS (cell_length hgood))).trans .returnFrameArrival
    · exact (Event.of_kept fun _ => .onZPort _).trans .returnFrameArrival

theorem Event.zGoodInDown : Event s (zGoodInDown s) := by
  unfold Machine.zGoodInDown
  dsimp only
  split
  · exact (Event.of_kept fun _ => .onZPort _).trans .zLinkUp
  · exact .of_kept fun _ => .onZPort _

theorem Event.zFail : Event s (zFail s) := by
  unfold Machine.zFail
  split
  · dsimp only
    split
    · exact (Event.of_kept fun _ => .onZPort _).trans .zLinkDown
    · exact .of_kept fun _ => .onZPort _
  · exact .of_kept fun _ => .onZPort _

theorem Event.zPeriodSettle (received : Option (List Byte)) : Event s (zPeriodSettle received s) := by
  unfold Machine.zPeriodSettle
  split
  · split
    · unfold zGood
      dsimp only
      split
      · exact (Event.of_kept fun _ => .onZPort _).trans (.zGoodInUp ..)
      · exact (Event.of_kept fun _ => .onZPort _).trans .zGoodInDown
    · exact .zFail
  · exact .zFail

/-! ### Frames sent (R112, R118, R150) -/

theorem Kept.groupSample (group : Nat) (kind : PlanKind) : Kept x D s D (groupSample group kind s).1 := by
  have hused : Kept x D s D (Machine.useEntry (translationRef (translationIndex group kind)) s).1 := .useOther nofun
  unfold Machine.groupSample
  rcases huse : Machine.useEntry (translationRef (translationIndex group kind)) s with ⟨t, _ | _⟩
  all_goals rw [huse] at hused; exact hused

theorem Kept.zoneSample (hz : x.inRange → z < 128) : Kept x D s D (zoneSample z s).1 := by
  unfold Machine.zoneSample
  split
  · exact .refl x D s
  · exact .refl x D s
  · have hused : Kept x D s D (Machine.useZone z s).1 := .useZone hz
    rcases huse : Machine.useZone z s with ⟨t, _ | _⟩
    all_goals rw [huse] at hused
    · exact hused
    · exact hused.trans (.groupSample ..)

theorem Kept.buildSlots (n : Nat) (hz : x.inRange → z + n ≤ 128) : Kept x D s D (buildSlots n z s).1 := by
  induction n generalizing z s with
  | zero => exact .refl x D s
  | succ n ih =>
    have hsample : Kept x D s D (Machine.zoneSample z s).1 := .zoneSample fun hx => by
      have := hz hx
      omega
    exact hsample.trans (ih fun hx => by
      have := hz hx
      omega)

theorem Kept.startZCell : Kept x D s D (startZCell s) := by
  unfold Machine.startZCell
  split
  · split
    · next c rest hqueue =>
      refine .onRouter (f := fun r => { r with sToZ := rest, zSending := segmentsOf c }) fun h => ?_
      have hcell : c.length = 64 := h.cells c (by simp [hqueue])
      have hsize := h.sToZ
      rw [hqueue, List.length_cons] at hsize
      refine { h with sToZ := Nat.le_of_succ_le hsize, cells := fun d hd => h.cells d ?_, segments := fun g hg => ?_ }
      · rw [hqueue]
        exact List.mem_cons_of_mem _ hd
      · rcases List.mem_append.mp hg with hg | hg
        · exact h.segments g (List.mem_append_left _ hg)
        · exact segmentsOf_length hcell g hg
    · exact .refl x D s
  · exact .refl x D s

theorem nextSegment_subset (l : List Segment) : (nextSegment l).2 ⊆ l := by
  cases l with
  | nil => exact List.Subset.refl _
  | cons g rest => exact List.subset_cons_self g rest

theorem Kept.zSent : Kept x D s D (s.onRouter fun r => { r with zSending := (nextSegment r.zSending).2 }) :=
  .onRouter fun h => { h with
    segments := fun g hg => h.segments g ((List.mem_append.mp hg).elim (List.mem_append_left _) fun hg =>
      List.mem_append_right _ (nextSegment_subset _ hg)) }

theorem Kept.zFrameBuild : Kept x .empty s .empty (zFrameBuild s) := by
  have hbuilt : Kept x .empty s .empty (Machine.buildSlots 128 0 (Machine.startZCell (Machine.installIfPassed s))).1 :=
    (Kept.installIfPassed.trans .startZCell).trans (.buildSlots 128 fun _ => Nat.le_refl _)
  unfold Machine.zFrameBuild
  rcases hslots : Machine.buildSlots 128 0 (Machine.startZCell (Machine.installIfPassed s)) with ⟨t, xs⟩
  rw [hslots] at hbuilt
  exact (hbuilt.trans .zSent).trans (.onZPort _)

theorem Kept.sOutboundFrame : Kept x D s D (sOutboundFrame s) := by
  unfold Machine.sOutboundFrame
  refine Kept.trans (.onRouter (f := fun r => { r with sSending := (nextSegment (sLane s)).2 }) fun h =>
    { h with segments := fun g hg => h.segments g ?_ }) (.onSPort _)
  refine (List.mem_append.mp hg).elim (fun hg => List.mem_append_left _ ?_) (List.mem_append_right _)
  have hlane := nextSegment_subset (sLane s) hg
  unfold sLane at hlane
  split at hlane
  · exact hlane
  · cases hlane

/-! ### The frame timer (R105, R106) -/

theorem Kept.reloadDivider : Kept x D s D (reloadDivider s) := by
  unfold Machine.reloadDivider
  rw [readTiming_value]
  exact Kept.headerUsed.trans (.onTimer _)

theorem Event.supervisionTick : Event s (supervisionTick s) :=
  .of_sequencer (fun _ hx => .supervisionTick hx) fun _ => owedLaw_supervisionTick s

theorem Event.dividerTick : Event s (dividerTick s) := by
  unfold Machine.dividerTick
  split
  · exact ((Event.of_kept fun _ => .reloadDivider).trans (.drain _)).trans .supervisionTick
  · exact .refl s

theorem Event.incidentTick : Event s (incidentTick s) := Event.engineTick.trans (.of_kept fun _ => .leaseTick)

theorem Event.frameEvent : Event s (frameEvent s) := by
  have hcounted : Event s (Machine.validationFrame (Machine.claimTimers (s.onTimer FrameTimer.count))) :=
    .of_kept fun _ => ((Kept.onTimer _).trans .claimTimers).trans .validationFrame
  unfold Machine.frameEvent
  dsimp only
  split
  · exact (hcounted.trans .incidentTick).trans .dividerTick
  · exact hcounted.trans .dividerTick

theorem Event.frameStart (inWindow : Bool) : Event s (frameStart inWindow s) := by
  unfold Machine.frameStart
  split
  · exact .refl s
  · split
    · exact (Event.of_kept fun _ => .onTimer _).trans .frameEvent
    · split
      · exact .frameEvent
      · exact .refl s
    · exact .refl s
  · exact .of_kept fun _ => .onSPort _

/-! ### Every command -/

/-- The state after POWER_ON_RESET meets every law. -/
theorem Event.powerOnReset : Event s { State.reset with pending := s.pending } := by
  have hsame (z : Nat) : SameCandidates z State.reset { State.reset with pending := s.pending } :=
    ⟨rfl, rfl, rfl, fun _ _ => rfl⟩
  have hholder (z : Nat) : HolderLaw { State.reset with pending := s.pending } z :=
    (reset_holderLaw z).congr rfl Iff.rfl (hsame z).winner
  have hrecord (z : Nat) : RecordLaw { State.reset with pending := s.pending } z :=
    (reset_recordLaw z).congr rfl rfl rfl fun _ _ c hc => ⟨c, hc, rfl⟩
  refine ⟨⟨?blocks, ?zones, ?reach, fun _ _ => ?zone, fun _ _ _ _ => ?count⟩, fun _ _ => ⟨rfl, rfl⟩,
    fun _ => reset_planClaimLaw.congr rfl fun _ _ => rfl⟩
  case blocks =>
    exact ⟨rfl, fun _ => reset_faultUnitLaw, fun _ => reset_demandLaw, fun _ => reset_incidentLaw,
      fun _ he => (nomatch he), fun _ => reset_routerLaw, Nat.zero_le _⟩
  case zones =>
    exact ⟨fun _ _ _ _ _ _ _ _ hc => reset_no_claim hc, fun _ => reset_stampLaw, fun _ z _ _ => hholder z,
      fun _ _ => ⟨fun z _ => (hrecord z).shape, fun z _ _ => hrecord z⟩⟩
  case reach =>
    exact ⟨fun hno => absurd trivial hno, fun hno => absurd trivial hno, fun hno => absurd trivial hno,
      fun hno => absurd trivial hno⟩
  case zone => exact ⟨reset_zoneLaw.pointer, reset_zoneLaw.scrub, reset_zoneLaw.step, reset_zoneLaw.reserved⟩
  case count => exact fun _ _ _ hc => reset_no_claim hc

/-- A command's outcome is a next state, reached by an event. -/
def Outcome (s : State) (o : Out) : Prop := ∃ t, o = .next t ∧ Event s t

theorem Outcome.next (h : Event s t) : Outcome s (.next t) := ⟨t, rfl, h⟩

theorem Outcome.settled (h : Event s t) : Outcome s (settled t) := ⟨_, rfl, h.trans (.drain _)⟩

theorem Outcome.next_of_kept (h : ∀ x : Reach, Kept x .empty s .empty t) : Outcome s (.next t) := .next (.of_kept h)

theorem Outcome.settled_of_kept (h : ∀ x : Reach, Kept x .empty s .empty t) : Outcome s (Machine.settled t) := .settled (.of_kept h)

/-- A reservation requested is an event: the Sequencer's own fields stay. -/
theorem Event.requestReservation (hz : z < 128) : Event s (requestReservation z s).1 :=
  .of_sequencer (fun _ hx => .requestReservation hx fun _ => hz) fun h => by rwa [requestReservation_sequencer]

theorem Event.confirmTimeout (k : Nat) : Event s (match s.arbiter.claims.get k with
    | some c => if c.state.timedOut then dropClaims .noAnswer [k] s else s
    | none => s) := by
  split
  · split
    · exact .of_kept fun _ => .dropClaims _ _
    · exact .refl s
  · exact .refl s

theorem Event.retryIntervalEnd (k : Nat) : Event s (match s.arbiter.claims.get k with
    | some c => if c.state.retryDue then enterConfirming k s else s
    | none => s) := by
  split
  · next hc =>
    split
    · next hdue => exact .of_kept fun _ => .enterConfirming (offAir_of_retryDue hc hdue)
    · exact .refl s
  · exact .refl s

theorem Event.reservationAnswer {level : Nat} :
    Event s (if 128 ≤ z ∨ (level = 0 ∧ s.arbiter.reserved ≠ some z) then s
    else
      match s.sequencer.step with
      | .idle => startOwed (actOnAnswer z level (s.onSequencer fun q => { q with pointer := z }))
      | .deferred y _ => if y = z then startOwed (actOnAnswer z level s) else s
      | _ => s) := by
  split
  · exact .refl s
  next hvalid =>
  have hz : z < 128 := Nat.lt_of_not_le fun hle => hvalid (.inl hle)
  have hacted {t : State} : Event t (startOwed (actOnAnswer z level t)) :=
    .of_sequencer (fun _ hx => (Kept.actOnAnswer hx fun _ => hz).trans (.startOwed hx))
      fun _ => (ready_actOnAnswer z level t).startOwed
  split
  · refine Event.trans ?_ hacted
    exact .of_sequencer (fun _ hx => .onSequencer hx fun _ hl => ⟨hz, hl.scrub, hl.step, hl.reserved⟩) fun h => h
  · split
    · exact hacted
    · exact .refl s
  · exact .refl s

theorem Event.settleEnd : Event s (match s.sequencer.step with
    | .settle z 0 => setStep (.sample z 16) s
    | _ => s) := by
  split
  · next z hstep =>
    refine .of_sequencer (fun x hx => .of_sequencer hx fun y hy hr => .setStep hy fun hin _ => ?_)
      fun _ => owedLaw_of_step nofun
    exact (hr hin).stepZone (by simp [hstep]) (by rw [hstep]; rfl)
  · exact .refl s

theorem Event.sampleWindowEnd : Event s (match s.sequencer.step with
    | .sample z 0 => startOwed (endPilot z none s)
    | _ => s) := by
  split
  · next z hstep =>
    refine .of_sequencer (fun x hx => .of_sequencer hx fun y hy hr => Kept.trans (.endPilot hy (fun hin => ?_) none)
      (.startOwed hy)) fun _ => (ready_endPilot z none s).startOwed
    exact (hr hin).stepZone (by simp [hstep]) (by rw [hstep]; rfl)
  · exact .refl s

theorem Event.deferralLimit : Event s (match s.sequencer.step with
    | .deferred z n => checkDeferral z n s
    | _ => s) := by
  split
  · next hstep =>
    exact .of_sequencer (fun _ hx => .checkDeferral hx) fun _ => owedLaw_checkDeferral (by simp [hstep])
  · exact .refl s

theorem Event.abort : Event s (abort z s) := .of_sequencer (fun _ hx => .abort hx) owedLaw_abort

theorem Event.holderReport (level : Nat) : Event s (holderReport z level s) :=
  .of_sequencer (fun _ hx => .holderReport hx) owedLaw_holderReport

/-- Every command but a bare hand-over is an event. -/
theorem outcome_exec (c : Instr) (s : State) (hc : ∀ changes, c ≠ .planClaimHandover changes) : Outcome s (exec c s) := by
  have hif {p : Prop} [Decidable p] {t : State} (h : p → Event s t) : Event s (if p then t else s) := by
    split
    · next hp => exact h hp
    · exact .refl s
  cases c with
  | powerOnReset => exact .next .powerOnReset
  | frameEvent => exact .settled .frameEvent
  | incidentTick => exact .settled .incidentTick
  | supervisionTick => exact .settled .supervisionTick
  | frameStart inWindow => exact .settled (.frameStart inWindow)
  | sPeriodSettle received => exact .settled (.sPeriodSettle received)
  | sLinkUp => exact .next (hif fun _ => .of_kept fun _ => .sLinkUp)
  | huntFailed => exact .next (hif fun _ => .of_kept fun _ => .huntFailed)
  | sLinkIsland => exact .settled (hif fun _ => .of_kept fun _ => .sLinkIsland)
  | sOutboundFrame => exact .next_of_kept fun _ => .sOutboundFrame
  | zFrameBuild => exact .settled_of_kept fun _ => .zFrameBuild
  | zPeriodSettle received => exact .settled (.zPeriodSettle received)
  | zLinkUp => exact .next (hif fun _ => .zLinkUp)
  | zLinkDown => exact .settled (hif fun _ => .zLinkDown)
  | returnCellForward cell => exact .next (hif fun h => .of_kept fun _ => .forwardZToS (cell_length h))
  | cellForwardSToZ cell => exact .next (hif fun h => .of_kept fun _ => .forwardSToZ (cell_length h.1))
  | transmitterChoice => exact .next_of_kept fun _ => .transmitterChoice
  | fire dz => exact .settled .fire
  | restore dz => exact .next .restore
  | dfault dz => exact .next .dfault
  | dfaultClear dz => exact .next .dfaultClear
  | detectDiscard dz event => exact .next (.refl s)
  | confirmDeadlineExpiry id => exact .settled (.expireNamed id)
  | allClearEnd zone => exact .settled .endAllClear
  | planClaimHandover changes => exact absurd rfl (hc changes)
  | claim sender level channel selection => exact .settled (.claim ..)
  | release station slot => exact .settled_of_kept fun _ => .release ..
  | answerReady station slot number => exact .settled_of_kept fun _ => .answer (fun _ c hoff => .takeReady hoff c) ..
  | answerDefault station slot number => exact .settled_of_kept fun _ => .answer (fun _ c hoff => .takeDefault hoff c) ..
  | answerWithdraw station slot number => exact .settled_of_kept fun _ => .answer (fun _ _ _ => .dropClaims _ _) ..
  | answerWait station slot number => exact .settled_of_kept fun _ => .answer (fun _ c hoff => .takeWait hoff c) ..
  | confirmTimeout slot => exact .settled (.confirmTimeout slot)
  | retryIntervalEnd slot => exact .settled (.retryIntervalEnd slot)
  | channelPresenceChange channel => exact .settled (hif fun _ => .of_kept fun _ => .changePresence channel)
  | bind sender address destination => exact .settled (.bind ..)
  | status sender => exact .settled (.reading ..)
  | readEntry sender table index image => exact .settled (.reading ..)
  | readLine sender table index image => exact .settled (.reading ..)
  | readState sender kind form number => exact .settled (.reading ..)
  | find sender first count sense results => exact .settled (.reading ..)
  | editBegin sender => exact .settled (.editBegin sender)
  | writeEntry sender table index contents => exact .settled (.writeEntry ..)
  | writeLine sender table index contents => exact .settled (.writeLine ..)
  | editCommit sender => exact .settled (.editCommit sender)
  | validationEnd =>
    refine .next_of_kept fun x => ?_
    split
    · next hedit =>
      split
      · exact .endValidation hedit
      · exact .refl x .empty s
    · exact .refl x .empty s
  | install => exact .settled_of_kept fun _ => .installIfPassed
  | editCancel sender => exact .settled (.editCancel sender)
  | leaseExpiry =>
    refine .next_of_kept fun x => ?_
    split
    · split
      · exact .expireEdit
      · exact .refl x .empty s
    · exact .refl x .empty s
  | breakNotice => exact .next_of_kept fun _ => .breakEdit
  | setMask sender first count value => exact .settled (.setMask ..)
  | setTrim sender first count value => exact .settled (.setTrim ..)
  | hold sender id => exact .settled (.hold ..)
  | resume sender id => exact .settled (.resume ..)
  | advance sender id => exact .settled (.advance ..)
  | resetIncident sender id => exact .settled (.resetIncident ..)
  | evacuateAll sender => exact .settled (.evacuateAll sender)
  | resetAll sender => exact .settled (.resetAll sender)
  | sweep sender count => exact .settled (.sweep ..)
  | enableNotices sender => exact .settled (.enableNotices sender)
  | disableNotices sender => exact .settled (.disableNotices sender)
  | restart sender => exact .settled (.restartRequest sender)
  | unknownRequest sender requestType => exact .next (.unknownRequest ..)
  | addFault fault => exact .next_of_kept fun _ => .addFault fault
  | removeFault fault => exact .next_of_kept fun _ => .removeFault fault
  | queueNotification notice => exact .next_of_kept fun _ => .notify notice
  | scrubLine line => exact .settled (hif fun h => .of_kept fun _ => .scrubLine fun _ => h)
  | reservationRequest zone => exact .settled (hif fun h => .requestReservation h)
  | reservationAnswer zone level => exact .settled .reservationAnswer
  | reservationRelease zone => exact .settled_of_kept fun _ => .releaseReservation
  | abort zone => exact .settled .abort
  | holderReport zone level => exact .settled (.holderReport level)
  | returnFrameArrival => exact .settled .returnFrameArrival
  | settleEnd => exact .next .settleEnd
  | sampleWindowEnd => exact .settled .sampleWindowEnd
  | deferralLimit => exact .settled .deferralLimit
  | reportsAbsent => exact .settled .reportsAbsent
  | reportsAvailable => exact .next (.setAvailable true)

/-- Every command keeps the laws but that of the plan claims. -/
theorem kept_exec (c : Instr) (s : State) :
    ∃ t, exec c s = .next t ∧ Kept .all .empty s .empty t ∧ (OwedLaw s.sequencer → OwedLaw t.sequencer) := by
  by_cases hc : ∀ changes, c ≠ .planClaimHandover changes
  · obtain ⟨t, ht, hevent⟩ := outcome_exec c s hc
    exact ⟨t, ht, hevent.kept, hevent.owed⟩
  · obtain ⟨changes, rfl⟩ := Classical.not_forall.mp hc |>.imp fun _ => Classical.not_not.mp
    have hwork : ∀ x : Reach, x.plan → Kept x .empty s .empty (takePlanClaims changes s) := fun _ hx => .takePlanClaims hx changes
    have hsettled := Event.drain (s := takePlanClaims changes s) drainFuel
    refine ⟨_, rfl, (hwork .all trivial).trans hsettled.kept, fun h => hsettled.owed ?_⟩
    exact (hwork ⟨True, False, False, False⟩ trivial).sequencer id ▸ h

/-- A step that takes a command. -/
theorem step_next (h : step s = .next t) :
    t = s ∨ ∃ c rest, exec c { s with pending := rest } = .next t := by
  unfold step at h
  split at h
  · exact .inl (Host.Outcome.next.inj h).symm
  · exact .inr ⟨_, _, h⟩

/-- A step keeps the laws from the state with the command taken off its queue. -/
theorem step_kept (h : step s = .next t) :
    t = s ∨ ∃ rest, Kept .all .empty { s with pending := rest } .empty t ∧ (OwedLaw s.sequencer → OwedLaw t.sequencer) := by
  refine (step_next h).imp id fun ⟨c, rest, hexec⟩ => ⟨rest, ?_⟩
  obtain ⟨u, hu, hkept⟩ := kept_exec c { s with pending := rest }
  rw [Host.Outcome.next.inj (hexec.symm.trans hu)]
  exact hkept

theorem holders_pending {rest : List Instr} (h : ∀ z < 128, HolderLaw s z) : Holders .empty { s with pending := rest } :=
  fun z hz _ => (h z hz).congr rfl Iff.rfl (SameCandidates.winner ⟨rfl, rfl, rfl, fun _ _ => rfl⟩)

end Sys2Proof.Machine
end

section
/-! SUPPORT. The statements about the laws that every step keeps. -/

namespace Sys2Proof.Machine

/-- Settles O2. -/
theorem everyCommandAnswersNext : Obligations.EveryCommandAnswersNext := by
  intro c s
  obtain ⟨t, ht, hkept, -⟩ := kept_exec c s
  exact ⟨t, ht, hkept.pending⟩

/-- Settles O5. -/
theorem faultUnitLawKept : Obligations.FaultUnitLawKept := by
  intro s t hlaw hstep
  rcases step_kept hstep with rfl | ⟨rest, hkept, -⟩
  · exact hlaw
  · exact hkept.fault hlaw

/-- Settles O6. -/
theorem demandLawKept : Obligations.DemandLawKept := by
  intro s t hlaw hstep
  rcases step_kept hstep with rfl | ⟨rest, hkept, -⟩
  · exact hlaw
  · exact hkept.demand hlaw

/-- Settles O7. -/
theorem editAndChannelLawsKept : Obligations.EditAndChannelLawsKept := by
  refine ⟨fun s t hlaw hstep => ?edit, fun s t hlaw hstep => ?channel, fun s t hlaw hstep => ?stamp⟩
  all_goals rcases step_kept hstep with rfl | ⟨rest, hkept, -⟩
  case edit.inl | channel.inl | stamp.inl => exact hlaw
  case edit.inr => exact hkept.edit hlaw
  case channel.inr => exact hkept.channel hlaw
  case stamp.inr => exact hkept.stamp hlaw

/-- Settles O8: the holder law is kept through every event, the zones whose choices are still to be made set apart. -/
theorem holderLawKept : Obligations.HolderLawKept := by
  refine ⟨fun s t hholders hstep => ?holders, fun s t hholders hrecords hstep => ?records⟩
  all_goals rcases step_kept hstep with rfl | ⟨rest, hkept, -⟩
  case holders.inl => exact hholders
  case records.inl => exact hrecords
  case holders.inr => exact holders_empty.mp (hkept.holder (holders_pending hholders))
  case records.inr =>
    refine records_empty.mp (hkept.record (holders_pending hholders) (records_empty.mpr fun z hz => ?_))
    exact (hrecords z hz).congr rfl rfl rfl fun _ _ c hc => ⟨c, hc, rfl⟩

/-- Settles O9. -/
theorem holderCountsKept : Obligations.HolderCountsKept := by
  intro s t hholders hzone hcount hstep
  rcases step_kept hstep with rfl | ⟨rest, hkept, -⟩
  · exact hcount
  · exact hkept.count trivial (holders_pending hholders) ⟨hzone.pointer, hzone.scrub, hzone.step, hzone.reserved⟩ hcount

/-- Settles O10. -/
theorem sequencerLawsKept : Obligations.SequencerLawsKept := by
  refine ⟨fun s t hzone hstep => ?zone, fun s t howed hstep => ?owed⟩
  all_goals rcases step_kept hstep with rfl | ⟨rest, hkept, howedKept⟩
  case zone.inl => exact hzone
  case owed.inl => exact howed
  case zone.inr => exact hkept.zone trivial ⟨hzone.pointer, hzone.scrub, hzone.step, hzone.reserved⟩
  case owed.inr => exact howedKept howed

/-- Settles O11. -/
theorem routerLawKept : Obligations.RouterLawKept := by
  intro s t hrouter hhand hstep
  rcases step_kept hstep with rfl | ⟨rest, hkept, -⟩
  · exact ⟨hrouter, hhand⟩
  · refine ⟨hkept.router hrouter, handLaw_iff.mpr (Nat.le_zero.mp ?_)⟩
    exact Nat.le_trans hkept.hand (Nat.le_of_eq (handLaw_iff.mp hhand))

/-- Settles O12. -/
theorem incidentLawKept : Obligations.IncidentLawKept := by
  intro s t hlaw hstep
  rcases step_kept hstep with rfl | ⟨rest, hkept, -⟩
  · exact hlaw
  · exact hkept.incident hlaw

/-- Settles O13. -/
theorem planClaimsFollowDemand : Obligations.PlanClaimsFollowDemand := by
  intro c s t hc hlaw hexec
  obtain ⟨u, hu, hevent⟩ := outcome_exec c s hc
  rw [Host.Outcome.next.inj (hexec.symm.trans hu)]
  exact hevent.plan hlaw

end Sys2Proof.Machine
end

section
/-! SUPPORT. The statements about the cell lanes, the S outbound transmitter and the S-link outside UP (R105 to R112, R149 to R153). -/

namespace Sys2Proof.Machine

variable {s t : State}

/-! ### The cell lanes (R112, R149 to R151) -/

theorem nextSegment_eq (l : List Segment) : nextSegment l = (l.head?.getD idleSegment, l.tail) := by
  cases l <;> rfl

theorem forwardZToS_of_room {c : List Byte} (hlink : s.sPort.link = .up) (hroom : s.router.zToS.length < 8) :
    forwardZToS c s = { s with router := { s.router with zToS := s.router.zToS ++ [c] } } := if_pos ⟨hlink, hroom⟩

theorem forwardZToS_discards {c : List Byte} (h : s.sPort.link ≠ .up ∨ 8 ≤ s.router.zToS.length) : forwardZToS c s = s :=
  if_neg fun hroom => h.elim (absurd hroom.1) fun hfull => by omega

theorem forwardSToZ_of_room {c : List Byte} (hroom : s.router.sToZ.length < 8) :
    forwardSToZ c s = { s with router := { s.router with sToZ := s.router.sToZ ++ [c] } } := if_pos hroom

theorem forwardSToZ_discards {c : List Byte} (h : 8 ≤ s.router.sToZ.length) : forwardSToZ c s = s :=
  if_neg (Nat.not_lt.mpr h)

theorem forwards_iff {n : Nat} : s.forwards n = true ↔ n = 255 ∨ n ≠ s.router.address := by
  simp [State.forwards]

/-- Settles O21. -/
theorem cellLanes : Obligations.CellLanes := by
  refine ⟨fun s => ?outbound, fun cell s hgood => ⟨fun hlink hroom => ?zToS, fun h => ?zToSDiscards, fun h hroom => ?sToZ,
    fun h => ?sToZDiscards⟩⟩
  case outbound =>
    show Host.Outcome.next (sOutboundFrame s) = _
    unfold sOutboundFrame
    rw [nextSegment_eq]
    rfl
  case zToS =>
    show Host.Outcome.next (if cellGood cell then forwardZToS cell s else s) = _
    rw [if_pos hgood, forwardZToS_of_room hlink hroom]
  case zToSDiscards =>
    show Host.Outcome.next (if cellGood cell then forwardZToS cell s else s) = _
    rw [if_pos hgood, forwardZToS_discards h]
  case sToZ =>
    show Host.Outcome.next (if cellGood cell = true ∧ s.forwards (byteAt cell 0) = true then forwardSToZ cell s else s) = _
    rw [if_pos ⟨hgood, forwards_iff.mpr h⟩, forwardSToZ_of_room hroom]
  case sToZDiscards =>
    show Host.Outcome.next (if cellGood cell = true ∧ s.forwards (byteAt cell 0) = true then forwardSToZ cell s else s) = _
    rcases h with ⟨hunlike, haddress⟩ | hfull
    · rw [if_neg fun h => (forwards_iff.mp h.2).elim hunlike (absurd haddress)]
    · rw [forwardSToZ_discards hfull, ite_self]

/-! ### The transmitter's choice (R153, R154, R175) -/

/-- Requests that are no longer current are removed unsent, up to the first that is (R154). -/
theorem dropStale_append {stale l : List ConfirmRequest} (h : ∀ d ∈ stale, confirmCurrent s d = false) :
    dropStale s (stale ++ l) = dropStale s l := by
  induction stale with
  | nil => rfl
  | cons d stale ih =>
    rw [List.cons_append, dropStale, if_neg (by simp [h d List.mem_cons_self])]
    exact ih fun e he => h e (List.mem_cons_of_mem _ he)

theorem dropStale_current {c : ConfirmRequest} {rest : List ConfirmRequest} (h : confirmCurrent s c = true) :
    dropStale s (c :: rest) = c :: rest := if_pos h

theorem dropStale_none (h : ∀ d ∈ s.router.confirms, confirmCurrent s d = false) : dropStale s s.router.confirms = [] := by
  have hall := dropStale_append (l := []) h
  rwa [List.append_nil] at hall

theorem transmitterChoice_confirm {c : ConfirmRequest} {rest : List ConfirmRequest} (hlink : s.sPort.link = .up)
    (hidle : s.router.sSending = []) (h : dropStale s s.router.confirms = c :: rest) :
    transmitterChoice s = { s with router := { s.router with
      confirms := rest, sSending := segmentsOf (confirmCell s.router.address c) } } := by
  unfold transmitterChoice
  rw [if_neg (by simp [hlink, hidle]), h]
  rfl

theorem transmitterChoice_rest (hlink : s.sPort.link = .up) (hidle : s.router.sSending = [])
    (h : dropStale s s.router.confirms = []) :
    transmitterChoice s = chooseResponse (s.onRouter fun r => { r with confirms := [] }) := by
  unfold transmitterChoice
  rw [if_neg (by simp [hlink, hidle]), h]

theorem chooseResponse_filled {a : Answer} {rest : List Place} (h : s.router.places = .filled a :: rest) :
    chooseResponse s = { s with router := { s.router with places := rest, sSending := segmentsOf (answerCell a) } } := by
  unfold chooseResponse
  rw [h]
  rfl

theorem chooseResponse_none (h : ∀ a rest, s.router.places ≠ .filled a :: rest) : chooseResponse s = chooseForward s := by
  unfold chooseResponse
  split
  · next hplaces => exact absurd hplaces (h _ _)
  · rfl

theorem chooseForward_cons {c : List Byte} {rest : List (List Byte)} (h : s.router.zToS = c :: rest) :
    chooseForward s = { s with router := { s.router with zToS := rest, sSending := segmentsOf c } } := by
  unfold chooseForward
  rw [h]
  rfl

theorem chooseForward_nil (h : s.router.zToS = []) : chooseForward s = chooseNotice s := by
  unfold chooseForward
  rw [h]

theorem chooseNotice_nil (h : s.faultUnit.queue = []) : chooseNotice s = s := by
  unfold chooseNotice
  rw [h]

theorem chooseNotice_cons {n : QueuedNotice} {rest : List QueuedNotice} (h : s.faultUnit.queue = n :: rest) :
    chooseNotice s = { s with
      router := { s.router with
        sSending := segmentsOf (noticeCell (s.router.destination.getD 0) s.router.address n) }
      faultUnit := s.faultUnit.afterTake rest } := by
  unfold chooseNotice
  rw [h]
  rfl

theorem afterTake_eq (u : FaultUnit) (rest : List QueuedNotice) :
    u.afterTake rest =
      if rest = [] ∧ u.overrun = true then
        { u with
          queue := [{ number := (u.sequence + 1) % 256, notice := .overrun }], sequence := (u.sequence + 1) % 256
          overrun := false }
      else { u with queue := rest } := by
  unfold FaultUnit.afterTake
  split
  · next h => rw [h.1]; rfl
  · rfl

/-- Settles O24. -/
theorem transmitterChoosesInOrder : Obligations.TransmitterChoosesInOrder := by
  refine fun s => ⟨fun h => congrArg _ (if_pos h), fun hlink hidle => ⟨fun stale c rest hconfirms hstale hcurrent => ?confirm,
    fun hstale => ⟨fun a rest hplaces => ?response, fun hplaces => ⟨fun c rest hqueue => ?forward, fun hz hqueue => ?nothing,
      fun n rest hz hqueue => ?notice⟩⟩⟩⟩
  case confirm =>
    refine congrArg _ (transmitterChoice_confirm hlink hidle ?_)
    rw [hconfirms, dropStale_append hstale, dropStale_current hcurrent]
  all_goals
    refine congrArg Host.Outcome.next ((transmitterChoice_rest hlink hidle (dropStale_none hstale)).trans ?_)
  case response => exact chooseResponse_filled (by exact hplaces)
  all_goals refine (chooseResponse_none (by exact hplaces)).trans ?_
  case forward => exact chooseForward_cons (by exact hqueue)
  all_goals refine (chooseForward_nil (by exact hz)).trans ?_
  case nothing => exact chooseNotice_nil (by exact hqueue)
  case notice =>
    refine (chooseNotice_cons (s := s.onRouter fun r => { r with confirms := [] }) hqueue).trans ?_
    rw [afterTake_eq]
    rfl

/-! ### The S-link outside UP (R107, R108, R110) -/

theorem exec_sLinkUp_of (hlink : s.sPort.link = .hunt) (hrun : 16 ≤ s.sPort.goodRun) :
    exec .sLinkUp s = .next (sLinkUp s) := congrArg _ (if_pos ⟨hlink, hrun⟩)

theorem exec_huntFailed_of (hlink : s.sPort.link = .hunt) (hrun : 4 ≤ s.sPort.failedRun) :
    exec .huntFailed s = .next (huntFailed s) := congrArg _ (if_pos ⟨hlink, hrun⟩)

theorem sPeriodSettle_good {l : List Byte} (h : sFrameGood l = true) : sPeriodSettle (some l) s = sGood l s := if_pos h

/-- A period that is not good is bad or missed. -/
theorem sPeriodSettle_of_not_good {received : Option (List Byte)} (h : ∀ l, received = some l → sFrameGood l = false) :
    sPeriodSettle received s = match received with
      | none => sMissed s
      | some _ => sBad s := by
  rcases received with _ | l
  · rfl
  · exact if_neg (by simp [h l rfl])

/-- Settles O18. -/
theorem sPeriodsSettleOutsideUp : Obligations.SPeriodsSettleOutsideUp := by
  refine ⟨fun s received => ⟨fun hlink => ⟨?counted, ?ignored⟩, fun hlink => ⟨?good, ?bad, ?missed⟩⟩,
    fun s => ⟨exec_sLinkUp_of, fun h => congrArg _ (if_neg fun hup => ?_), exec_huntFailed_of,
      fun h => congrArg _ (if_neg fun hfail => ?_)⟩⟩
  case counted =>
    rintro l rfl hgood
    refine congrArg settled ((sPeriodSettle_good hgood).trans ?_)
    unfold sGood
    rcases hlink with hlink | hlink <;> rw [hlink] <;> rfl
  case ignored =>
    intro hbad
    refine congrArg settled ((sPeriodSettle_of_not_good hbad).trans ?_)
    unfold sMissed sBad
    rcases hlink with hlink | hlink <;> rw [hlink] <;> rcases received with _ | l <;> rfl
  case good =>
    rintro l rfl hgood
    have hsettled : sPeriodSettle (some l) s = sGoodInHunt (countGood l s) := by
      rw [sPeriodSettle_good hgood, sGood, hlink]
    refine ⟨fun hrun => ?_, fun hrun t ht => ?_⟩
    · refine congrArg settled (hsettled.trans ?_)
      exact if_neg (Nat.not_le.mpr (Nat.succ_lt_succ hrun))
    · refine congrArg settled (hsettled.trans ?_)
      have hup := (exec_sLinkUp_of (by exact hlink) (by exact Nat.succ_le_succ hrun)).symm.trans ht
      exact (if_pos (Nat.succ_le_succ hrun)).trans (Host.Outcome.next.inj hup)
  case bad =>
    rintro l rfl hbad
    refine congrArg settled ((if_neg (by simp [hbad])).trans ?_)
    rw [sBad, hlink]
    rfl
  case missed =>
    rintro rfl
    have hsettled : sPeriodSettle none s = sMissInHunt s := by rw [sPeriodSettle, sMissed, hlink]
    refine ⟨fun hrun => ?_, fun hrun t ht => ?_⟩
    · refine congrArg settled (hsettled.trans ?_)
      exact if_neg (Nat.not_le.mpr (Nat.succ_lt_succ hrun))
    · refine congrArg settled (hsettled.trans ?_)
      have hfailed := (exec_huntFailed_of (by exact hlink) (by exact Nat.succ_le_succ hrun)).symm.trans ht
      exact (if_pos (Nat.succ_le_succ hrun)).trans (Host.Outcome.next.inj hfailed)
  · exact h.elim (absurd hup.1) fun hrun => by omega
  · exact h.elim (absurd hfail.1) fun hrun => by omega

end Sys2Proof.Machine
end

section
/-! SUPPORT. The common handling of requests, the binding and the notifications: R16, R17, R152, R155, R156, R176, R177. -/

namespace Sys2Proof.Machine

variable {q : Sender} {type : Nat} {need : Authority} {data refusal : List Byte} {status : Status}
  {owner : State → State × Reply} {s t v : State}

/-! ### What a request answers -/

/-- A request whose owner answers at once: the place reserved goes with the answer (R152, R155). -/
theorem Entitled.request_answered (h : Entitled q need s) (hb : s.router.address ≠ 0 ∨ takenUnbound type = true)
    (howner : owner (reservePlace q (lookedUp q s)) = (reservePlace q v, some (status, data))) (hhand : HandLaw v.router) :
    request q type need refusal owner s = answered q (.response type status data) v := by
  rw [request_heard h hb, howner]
  exact giveAnswer_reserved hhand

theorem HandLaw.of_places {r r' : Router} (h : HandLaw r) (hplaces : r'.places = r.places) : HandLaw r' := by
  unfold HandLaw
  rwa [hplaces]

theorem Heard.request_answered (h : Heard q need s)
    (howner : owner (reservePlace q (lookedUp q s)) = (reservePlace q v, some (status, data)))
    (hplaces : v.router.places = s.router.places) :
    request q type need refusal owner s = answered q (.response type status data) v :=
  h.toEntitled.request_answered (.inl h.bound) howner (h.hand.of_places hplaces)

/-- A request whose owner refuses it changes nothing but the answer's place. -/
theorem Heard.request_refused (h : Heard q need s)
    (howner : owner (reservePlace q (lookedUp q s)) = (reservePlace q (lookedUp q s), some (status, data))) :
    request q type need refusal owner s = answered q (.response type status data) (lookedUp q s) :=
  h.request_answered howner (by rw [(lookedUp_beside q s).1])

/-- Every request command is a use of the common handling. -/
theorem exec_of_requestOf {c : Instr} (h : requestOf c = some (q, type, need, data)) (s : State) :
    ∃ owner, exec c s = settled (request q type need data owner s) := by
  cases c <;> cases h <;> exact ⟨_, rfl⟩

theorem unknownRequest_of_room (hplaces : s.router.places.length < 8) (h : type = 0 ∨ 23 < type) :
    unknownRequest q type s = giveAnswer .command (.response type .unknownRequest []) (reservePlace q s) :=
  if_pos ⟨decide_eq_true hplaces, h⟩

theorem unknownRequest_of_full (hplaces : 8 ≤ s.router.places.length) : unknownRequest q type s = s :=
  if_neg fun h => Nat.not_lt.mpr hplaces (of_decide_eq_true h.1)

/-! ### The authority lookup (R16, R17) -/

theorem noAuthorities_iff : s.noAuthorities = true ↔
    (∀ i < 32, s.tables.fields.authorities.get i = none) ∧ ∀ r ∈ s.tables.marks, r.table ≠ .authority := by
  simp [State.noAuthorities, Tab.items_eq_map_get]

theorem noAuthorities_of_some {i : Nat} {e : AuthorityRow} (hi : i < 32)
    (h : s.tables.fields.authorities.get i = some e) : s.noAuthorities = false :=
  Bool.eq_false_iff.mpr fun hnone => nomatch h.symm.trans ((noAuthorities_iff.mp hnone).1 i hi)

theorem authorityOf_empty {a : Nat} (h : s.noAuthorities = true) : authorityOf a s = (s, some .configure) := if_pos h

theorem authorityOf_searched {a : Nat} (h : s.noAuthorities = false) : authorityOf a s = searchAuthority a 32 0 s :=
  if_neg (by simp [h])

theorem searchAuthority_vacant {a n i : Nat} (hs : SoundTables s) (h : s.tables.fields.authorities.get i = none) :
    searchAuthority a (n + 1) i s = (s, none) := by
  simp [searchAuthority, useEntry_sound (hs _), h]

theorem searchAuthority_entry {a n i : Nat} {e : AuthorityRow} (hs : SoundTables s)
    (h : s.tables.fields.authorities.get i = some e) :
    searchAuthority a (n + 1) i s = if e.station = a then (s, some e.authority) else searchAuthority a n (i + 1) s := by
  simp [searchAuthority, useEntry_sound (hs _), h]

/-- The search passes over the entries of other stations. -/
theorem searchAuthority_skips {a n i : Nat} (hs : SoundTables s) (k : Nat)
    (h : ∀ j < i + k, ∃ e, s.tables.fields.authorities.get j = some e ∧ e.station ≠ a) :
    searchAuthority a (n + k) i s = searchAuthority a n (i + k) s := by
  induction k generalizing i with
  | zero => rfl
  | succ k ih =>
    obtain ⟨e, he, hstation⟩ := h i (by omega)
    rw [← Nat.add_assoc, searchAuthority_entry hs he]
    refine (if_neg hstation).trans ((ih fun j hj => h j (by omega)).trans ?_)
    rw [Nat.add_right_comm, Nat.add_assoc]

theorem authorityOf_skips {a i : Nat} (hs : SoundTables s) (hi : i < 32) (hsome : s.noAuthorities = false)
    (h : ∀ j < i, ∃ e, s.tables.fields.authorities.get j = some e ∧ e.station ≠ a) :
    authorityOf a s = searchAuthority a (31 - i + 1) i s := by
  have hskip := searchAuthority_skips (n := 31 - i + 1) (i := 0) hs i (by simpa using h)
  rw [authorityOf_searched hsome]
  rwa [show 31 - i + 1 + i = 32 by omega, Nat.zero_add] at hskip

/-- Marked entries are passed over like those of other stations. -/
theorem searchAuthority_marked (a n i : Nat) {s : State} (hn : i + n ≤ 32) (h : ∀ i < 32, s.marked (authorityRef i) = true) :
    (searchAuthority a n i s).2 = none := by
  induction n generalizing i s with
  | zero => rfl
  | succ n ih =>
    rw [searchAuthority, useEntry_of_marked (h i (by omega))]
    exact ih (i + 1) (by omega) h

theorem authorityOf_all_marked {a : Nat} (h : ∀ i < 32, s.marked (authorityRef i) = true) : (authorityOf a s).2 = none := by
  have hmark : authorityRef 0 ∈ s.tables.marks := by simpa [State.marked] using h 0 (by omega)
  have hsome : s.noAuthorities = false :=
    Bool.eq_false_iff.mpr fun hnone => (noAuthorities_iff.mp hnone).2 _ hmark rfl
  rw [authorityOf_searched hsome]
  exact searchAuthority_marked a 32 0 (by omega) h

theorem meets_some_eq_false_iff {found : Authority} : need.meets (some found) = false ↔
    (need = .operate ∧ found = .monitor) ∨ (need = .configure ∧ found ≠ .configure) := by
  cases need <;> cases found <;> decide

/-- Settles O25. -/
theorem requestsRefusedInOrder : Obligations.RequestsRefusedInOrder := by
  refine ⟨⟨fun c q type need data s hc => ?request, fun q type s htype => ⟨fun hfull => ?unknownFull, fun hroom hhand => ?unknown⟩⟩,
    fun a s hnone hmarks => authorityOf_empty (noAuthorities_iff.mpr ⟨hnone, hmarks⟩), fun a i s hs hi hskip => ⟨?found, ?vacant⟩,
    ?none, fun a s h => authorityOf_all_marked h, fun need found => ⟨rfl, meets_some_eq_false_iff⟩⟩
  case request =>
    obtain ⟨owner, hexec⟩ := exec_of_requestOf hc s
    refine ⟨fun hfull => hexec.trans (congrArg settled (request_noPlace hfull)),
      fun hroom hhand hdenied => hexec.trans (congrArg settled (request_denied hroom hhand hdenied)),
      fun hentitled hunbound h1 h2 => hexec.trans (congrArg settled (request_notBound hentitled hunbound ?_))⟩
    simp [takenUnbound, h1, h2]
  case unknownFull => exact congrArg Host.Outcome.next (unknownRequest_of_full hfull)
  case unknown =>
    exact congrArg Host.Outcome.next ((unknownRequest_of_room hroom htype).trans (giveAnswer_reserved hhand))
  case found =>
    intro level he
    rw [authorityOf_skips hs hi (noAuthorities_of_some hi he) hskip, searchAuthority_entry hs he]
    exact if_pos rfl
  case vacant =>
    intro he hpos
    obtain ⟨e, hfirst, _⟩ := hskip 0 hpos
    rw [authorityOf_skips hs hi (noAuthorities_of_some (by omega) hfirst) hskip, searchAuthority_vacant hs he]
  case none =>
    intro a s hs hskip
    obtain ⟨e, hfirst, _⟩ := hskip 0 (by decide)
    rw [authorityOf_searched (noAuthorities_of_some (by decide) hfirst)]
    exact searchAuthority_skips (n := 0) (i := 0) hs 32 (by simpa using hskip)

/-! ### The binding and the notifications (R156, R176, R177) -/

theorem takeBinding_bound {address destination : Nat} (h : s.router.address ≠ 0) :
    takeBinding address destination s = (s, some (.alreadyBound, [])) := if_pos h

/-- The values a binding takes (R156). -/
def Binds (address destination : Nat) : Prop := 1 ≤ address ∧ address ≤ 254 ∧ 1 ≤ destination ∧ destination ≤ 254

theorem not_binds_iff {address destination : Nat} :
    isStation address = false ∨ isStation destination = false ↔ ¬Binds address destination := by
  simp only [isStation, Binds, Bool.and_eq_false_iff, decide_eq_false_iff_not]
  omega

theorem takeBinding_badValue {address destination : Nat} (h : s.router.address = 0) (hv : ¬Binds address destination) :
    takeBinding address destination s = (s, some (.badValue, [])) :=
  (if_neg fun hbound => hbound h).trans (if_pos (not_binds_iff.mpr hv))

theorem takeBinding_ok {address destination : Nat} (h : s.router.address = 0) (hv : Binds address destination) :
    takeBinding address destination s =
      (s.onRouter fun r => { r with address := address, destination := some destination }, some (.ok, [])) :=
  (if_neg fun hbound => hbound h).trans (if_neg fun hbad => not_binds_iff.mp hbad hv)

/-- Settles O26. -/
theorem bindingAndNotices : Obligations.BindingAndNotices := by
  refine ⟨fun q address destination s h => ?bind, fun q s h => ⟨?enable, ?disable⟩⟩
  case bind =>
    have hrouter : (lookedUp q s).router = s.router := (lookedUp_beside q s).1
    have haddress : (reservePlace q (lookedUp q s)).router.address = s.router.address := by
      rw [← hrouter]
      rfl
    refine ⟨fun hbound => congrArg settled ?_, fun hunbound hbad => congrArg settled ?_,
      fun hunbound hvalid => congrArg settled ?_⟩
    · exact h.request_answered (.inr rfl) (takeBinding_bound (fun hzero => hbound (haddress.symm.trans hzero))) (h.hand.of_places (by rw [hrouter]))
    · exact h.request_answered (.inr rfl) (takeBinding_badValue (haddress.trans hunbound) hbad)
        (h.hand.of_places (by rw [hrouter]))
    · refine h.request_answered (.inr rfl) (takeBinding_ok (haddress.trans hunbound) hvalid) (h.hand.of_places ?_)
      show (lookedUp q s).router.places = s.router.places
      rw [hrouter]
  case enable =>
    rw [← (lookedUp_worked q s).engine]
    refine congrArg settled (h.request_answered rfl ?_)
    exact congrArg Router.places (lookedUp_beside q s).1
  case disable =>
    refine congrArg settled (h.request_answered rfl ?_)
    exact congrArg Router.places (lookedUp_beside q s).1

end Sys2Proof.Machine
end

section
/-! SUPPORT. What holder choices and would-win tests leave of the claims: their slots and all but their state and count (R88, R99
to R101); and the freeing of slots (R96, R97). -/

namespace Sys2Proof.Machine

variable {s t u : State} {z k : Nat}

/-! ### Claims rearranged -/

/-- What of a claim no holder choice and no test changes. -/
def Claim.identity (c : Claim) : Claim := { c with state := .pending, zonesHeld := 0 }

/-- The claims are in their slots with what no choice or test changes, the plan claims are as they were, and no zone has come to
be held by an empty slot. -/
structure Rearranged (s t : State) : Prop where
  claims : ∀ k, (t.arbiter.claims.get k).map Claim.identity = (s.arbiter.claims.get k).map Claim.identity
  planClaims : t.arbiter.planClaims = s.arbiter.planClaims
  holders : ∀ k, s.arbiter.claims.get k = none → ∀ z < 128,
    s.arbiter.holders.get z ≠ .slot k → t.arbiter.holders.get z ≠ .slot k

namespace Rearranged

theorem of_arbiter (hclaims : t.arbiter.claims = s.arbiter.claims) (hplan : t.arbiter.planClaims = s.arbiter.planClaims)
    (hholders : t.arbiter.holders = s.arbiter.holders) : Rearranged s t :=
  ⟨fun _ => by rw [hclaims], hplan, fun _ _ _ _ h => by rwa [hholders]⟩

theorem refl (s : State) : Rearranged s s := of_arbiter rfl rfl rfl

theorem none_iff (h : Rearranged s t) (k : Nat) : t.arbiter.claims.get k = none ↔ s.arbiter.claims.get k = none := by
  rw [← Option.map_eq_none_iff, h.claims, Option.map_eq_none_iff]

theorem trans (h : Rearranged s t) (g : Rearranged t u) : Rearranged s u where
  claims k := (g.claims k).trans (h.claims k)
  planClaims := g.planClaims.trans h.planClaims
  holders k hk z hz hholder := g.holders k ((h.none_iff k).mpr hk) z hz (h.holders k hk z hz hholder)

theorem foldl {α : Type} {f : State → α → State} (h : ∀ t a, Rearranged t (f t a)) (l : List α) (s : State) :
    Rearranged s (l.foldl f s) := by
  induction l generalizing s with
  | nil => exact refl s
  | cons a l ih => exact (h s a).trans (ih (f s a))

theorem map_eq {α : Type} {f : Claim → α} (h : Rearranged s t) (hf : ∀ c, f c.identity = f c) (k : Nat) :
    (t.arbiter.claims.get k).map f = (s.arbiter.claims.get k).map f := by
  have hid : ∀ o : Option Claim, o.map f = (o.map Claim.identity).map f := fun o => by
    rcases o with _ | c
    · rfl
    · exact congrArg some (hf c).symm
  rw [hid, h.claims, ← hid]

theorem claim (h : Rearranged s t) {d : Claim} (hd : t.arbiter.claims.get k = some d) :
    ∃ c, s.arbiter.claims.get k = some c ∧ d.identity = c.identity := by
  have hmap := h.claims k
  rw [hd] at hmap
  obtain ⟨c, hc, hid⟩ := Option.map_eq_some_iff.mp hmap.symm
  exact ⟨c, hc, hid.symm⟩

end Rearranged

theorem touchZone_arbiter (z : Nat) (s : State) :
    (touchZone z s).1.arbiter = { s.arbiter with masks := (touchZone z s).1.arbiter.masks } := by
  by_cases hs : Sound s (zoneRef z)
  · rw [touchZone_sound hs]
  · rcases hm : s.marked (zoneRef z)
    · rw [touchZone_of_newlyMarked ⟨hs, hm⟩]
      unfold zoneMarked zoneDisabledCheck
      split
      · rfl
      · split <;> rfl
    · rw [touchZone_of_marked hm]
      rfl

theorem touchZone_router (z : Nat) (s : State) : (touchZone z s).1.router = s.router := by
  by_cases hs : Sound s (zoneRef z)
  · rw [touchZone_sound hs]
  · rcases hm : s.marked (zoneRef z)
    · rw [touchZone_of_newlyMarked ⟨hs, hm⟩]
      unfold zoneMarked zoneDisabledCheck
      split
      · rfl
      · split <;> rfl
    · rw [touchZone_of_marked hm]
      rfl

theorem Rearranged.touchZone (z : Nat) (s : State) : Rearranged s (touchZone z s).1 := by
  refine .of_arbiter ?_ ?_ ?_
  all_goals rw [touchZone_arbiter]

theorem Rearranged.touchZones (zs : List Nat) (s : State) : Rearranged s (touchZones zs s).1 := by
  induction zs generalizing s with
  | nil => exact .refl s
  | cons z zs ih => exact (Rearranged.touchZone z s).trans (ih _)

/-- An empty slot wins no zone. -/
theorem winner_ne_slot (h : s.arbiter.claims.get k = none) (z : Nat) : (winner s z).1 ≠ .slot k := fun hwinner => by
  obtain ⟨stamp, hcandidate⟩ := winner_slot hwinner
  simp [candidate, h] at hcandidate

theorem Rearranged.giveHolder {h : Holder} (hout : ∀ k, s.arbiter.claims.get k = none → h ≠ .slot k) (level : Nat) :
    Rearranged s (giveHolder z h level s) := by
  have hgiven := giveHolder_given z h level s
  refine ⟨fun k => ?_, ?_, fun k hk y hy hne => ?_⟩
  · rw [hgiven.claims, Option.map_map]
    rfl
  · rw [hgiven.rest]
  · rw [hgiven.holders y hy]
    split
    · exact hout k hk
    · exact hne

/-- What a holder choice comes to, once the groups it needs have been read: the holder given is not an empty slot's. -/
theorem decideHolder_cases {P : State → Prop}
    (hgiven : ∀ h level, (∀ k, s.arbiter.claims.get k = none → h ≠ .slot k) → P (giveHolder z h level s))
    (habort : ∀ h level, (∀ k, s.arbiter.claims.get k = none → h ≠ .slot k) →
      P ((giveHolder z h level (s.onArbiter fun a => { a with reserved := none })).send (.abort z))) :
    P (decideHolder z s) := by
  unfold decideHolder
  dsimp only
  split
  · split
    · exact habort _ _ fun k hk => winner_ne_slot hk z
    · exact hgiven _ _ fun _ _ => nofun
  · exact hgiven _ _ fun k hk => winner_ne_slot hk z

theorem Rearranged.decideHolder (z : Nat) (s : State) : Rearranged s (decideHolder z s) :=
  decideHolder_cases (fun _ level hout => .giveHolder hout level) fun h level hout => by
    have hgiven := Rearranged.giveHolder (z := z) (s := s.onArbiter fun a => { a with reserved := none }) hout level
    exact ⟨hgiven.claims, hgiven.planClaims, hgiven.holders⟩

/-- No empty slot holds a zone that has been chosen. -/
theorem decideHolder_ne_slot (hk : s.arbiter.claims.get k = none) (hz : z < 128) :
    (decideHolder z s).arbiter.holders.get z ≠ .slot k :=
  decideHolder_cases (P := fun t => t.arbiter.holders.get z ≠ .slot k)
    (fun h level hout => by
      rw [(giveHolder_given z h level s).holders z hz, if_pos rfl]
      exact hout k hk)
    fun h level hout => by
      rw [State.send_arbiter, (giveHolder_given z h level _).holders z hz, if_pos rfl]
      exact hout k hk

theorem giveHolder_router (z : Nat) (h : Holder) (level : Nat) (s : State) : (giveHolder z h level s).router = s.router := by
  rw [(giveHolder_given z h level s).rest]

theorem decideHolder_router (z : Nat) (s : State) : (decideHolder z s).router = s.router :=
  decideHolder_cases (P := fun t => t.router = s.router) (fun h level _ => giveHolder_router z h level s)
    fun h level _ => giveHolder_router z h level _

theorem chooseHolder_eq (z : Nat) (s : State) :
    chooseHolder z s = decideHolder z (if s.groupsOnAir then (touchZone z s).1 else s) := rfl

theorem Rearranged.chooseHolder (z : Nat) (s : State) : Rearranged s (chooseHolder z s) := by
  rw [chooseHolder_eq]
  split
  · exact (Rearranged.touchZone z s).trans (.decideHolder z _)
  · exact .decideHolder z s

theorem Rearranged.chooseHolders (zs : List Nat) (s : State) : Rearranged s (chooseHolders zs s) :=
  .foldl (fun t z => .chooseHolder z t) zs s

theorem chooseHolder_router (z : Nat) (s : State) : (chooseHolder z s).router = s.router := by
  rw [chooseHolder_eq, decideHolder_router]
  split
  · exact touchZone_router z s
  · rfl

theorem chooseHolders_router (zs : List Nat) (s : State) : (chooseHolders zs s).router = s.router := by
  induction zs generalizing s with
  | nil => rfl
  | cons z zs ih => exact (ih (chooseHolder z s)).trans (chooseHolder_router z s)

theorem chooseHolder_ne_slot (hk : s.arbiter.claims.get k = none) (hz : z < 128) :
    (chooseHolder z s).arbiter.holders.get z ≠ .slot k := by
  rw [chooseHolder_eq]
  split
  · exact decideHolder_ne_slot (((Rearranged.touchZone z s).none_iff k).mpr hk) hz
  · exact decideHolder_ne_slot hk hz

theorem chooseHolders_ne_slot {zs : List Nat} (hk : s.arbiter.claims.get k = none) (hz : z < 128)
    (h : z ∉ zs → s.arbiter.holders.get z ≠ .slot k) : (chooseHolders zs s).arbiter.holders.get z ≠ .slot k := by
  induction zs generalizing s with
  | nil => exact h List.not_mem_nil
  | cons y zs ih =>
    have hchosen := Rearranged.chooseHolder y s
    refine ih ((hchosen.none_iff k).mpr hk) fun hno => ?_
    by_cases hzy : z = y
    · subst hzy
      exact chooseHolder_ne_slot hk hz
    · exact hchosen.holders k hk z hz (h fun hmem => (List.mem_cons.mp hmem).elim hzy hno)

/-! ### The tests -/

theorem Rearranged.headerUsed (s : State) : Rearranged s (headerUsed s) := by
  refine .of_arbiter ?_ ?_ ?_
  all_goals rw [headerUsed_arbiter]

theorem Rearranged.enterConfirming (k : Nat) (s : State) : Rearranged s (enterConfirming k s) := by
  unfold Machine.enterConfirming
  split
  · exact .refl s
  · rw [readTiming_value]
    refine (Rearranged.headerUsed s).trans ⟨fun j => ?_, rfl, fun _ _ _ _ => id⟩
    show (((Machine.headerUsed s).arbiter.onClaim k _).claims.get j).map _ = _
    rw [onClaim_claims_map, Option.map_map]
    refine congrArg (Option.map · _) (funext fun c => ?_)
    show (if k = j then _ else c).identity = c.identity
    split <;> rfl

theorem Rearranged.confirmWinners (ks : List Nat) (s : State) : Rearranged s (confirmWinners ks s) := by
  refine .foldl (fun t k => ?_) ks s
  split
  · exact .enterConfirming k t
  · exact .refl t

theorem Rearranged.wouldWinTest (ks : List Nat) (s : State) : Rearranged s (wouldWinTest ks s) := by
  have h := Rearranged.touchZones (testReads s ks) s
  unfold Machine.wouldWinTest
  split
  · next t ht =>
    rw [ht] at h
    exact h.trans (.confirmWinners ks t)
  · next t fresh _ ht =>
    rw [ht] at h
    exact h.trans ((Rearranged.chooseHolders fresh t).trans ((Rearranged.confirmWinners ks _).trans
      ((Rearranged.touchZones _ _).trans ((Rearranged.chooseHolders _ _).trans (.confirmWinners _ _)))))

theorem Rearranged.testPending (s : State) : Rearranged s (testPending s) := .wouldWinTest _ s

theorem Rearranged.choiceEvent (zs : List Nat) (s : State) : Rearranged s (choiceEvent zs s) := by
  unfold Machine.choiceEvent
  split
  · exact .refl s
  · exact (Rearranged.chooseHolders zs s).trans (.testPending _)

/-! ### Slots freed and claims dropped (R96, R97) -/

/-- The arbiter with these slots emptied. -/
def Arbiter.emptied (ks : List Nat) (a : Arbiter) : Arbiter :=
  { a with claims := ks.foldl (fun c k => c.set k none) a.claims }

/-- The zones that these slots hold. -/
def heldBy (s : State) (ks : List Nat) : List Nat := indices 128 fun z => ks.any fun k => decide (s.arbiter.holders.get z = .slot k)

theorem mem_heldBy {ks : List Nat} (hz : z < 128) (hk : k ∈ ks) (h : s.arbiter.holders.get z = .slot k) : z ∈ heldBy s ks :=
  mem_indices.mpr ⟨hz, List.any_eq_true.mpr ⟨k, hk, decide_eq_true h⟩⟩

theorem freeSlots_eq (ks : List Nat) (s : State) :
    freeSlots ks s =
      let t := chooseHolders (heldBy s ks) (s.onArbiter (Arbiter.emptied ks))
      if ks.any s.slotOnAir then testPending t else t := rfl

theorem emptied_get (ks : List Nat) (s : State) (j : Nat) :
    (s.onArbiter (Arbiter.emptied ks)).arbiter.claims.get j = if j ∈ ks then none else s.arbiter.claims.get j :=
  get_foldl_set_none ks s.arbiter.claims j

/-- The freeing of slots is a rearrangement of the claims that stay. -/
theorem Rearranged.freeSlots (ks : List Nat) (s : State) :
    Rearranged (s.onArbiter (Arbiter.emptied ks)) (freeSlots ks s) := by
  rw [freeSlots_eq]
  dsimp only
  split
  · exact (Rearranged.chooseHolders _ _).trans (.testPending _)
  · exact .chooseHolders _ _

theorem freeSlots_none {ks : List Nat} (hk : k ∈ ks) : (freeSlots ks s).arbiter.claims.get k = none := by
  rw [(Rearranged.freeSlots ks s).none_iff, emptied_get, if_pos hk]

theorem freeSlots_ne_slot {ks : List Nat} (hk : k ∈ ks) (hz : z < 128) :
    (freeSlots ks s).arbiter.holders.get z ≠ .slot k := by
  have hnone : (s.onArbiter (Arbiter.emptied ks)).arbiter.claims.get k = none := by rw [emptied_get, if_pos hk]
  have hchosen := chooseHolders_ne_slot (zs := heldBy s ks) hnone hz fun hno hholder => hno (mem_heldBy hz hk hholder)
  have hchoices := Rearranged.chooseHolders (heldBy s ks) (s.onArbiter (Arbiter.emptied ks))
  rw [freeSlots_eq]
  dsimp only
  split
  · exact (Rearranged.testPending _).holders k ((hchoices.none_iff k).mpr hnone) z hz hchosen
  · exact hchosen

theorem freeSlots_quiet {ks : List Nat} (hs : SoundTables s) :
    (freeSlots ks s).tables = s.tables ∧ (freeSlots ks s).faultUnit = s.faultUnit := by
  have hs' : SoundTables (s.onArbiter (Arbiter.emptied ks)) := hs
  have hchoices := chooseHolders_quiet (heldBy s ks) hs'
  rw [freeSlots_eq]
  dsimp only
  split
  · have htest := hchoices.trans (testPending_quiet (hchoices.sound hs'))
    exact ⟨htest.tables, htest.faultUnit⟩
  · exact ⟨hchoices.tables, hchoices.faultUnit⟩

/-- The CLAIM_DROPPED notifications of the claims in these slots (R97). -/
def dropNotices (reason : DropReason) (ks : List Nat) (s : State) (u : FaultUnit) : FaultUnit :=
  ks.foldl (fun v k =>
    match s.arbiter.claims.get k with
    | some c => v.take (.claimDropped k c.station reason)
    | none => v) u

theorem dropNotices_cons (reason : DropReason) (ks : List Nat) (u : FaultUnit) :
    dropNotices reason (k :: ks) s u = dropNotices reason ks s (match s.arbiter.claims.get k with
      | some c => u.take (.claimDropped k c.station reason)
      | none => u) := rfl

theorem dropClaims_eq (reason : DropReason) (ks : List Nat) (s : State) :
    dropClaims reason ks s = freeSlots ks (s.onFaultUnit (dropNotices reason ks s)) := by
  suffices h : ∀ t : State, ks.foldl (fun t k =>
      match s.arbiter.claims.get k with
      | some c => notify (.claimDropped k c.station reason) t
      | none => t) t = t.onFaultUnit (dropNotices reason ks s) from congrArg (freeSlots ks) (h s)
  induction ks with
  | nil => exact fun t => rfl
  | cons k ks ih =>
    intro t
    rw [List.foldl_cons, ih]
    show _ = { t with faultUnit := dropNotices reason (k :: ks) s t.faultUnit }
    rw [dropNotices_cons]
    rcases s.arbiter.claims.get k with _ | c <;> rfl

theorem dropNotices_single {reason : DropReason} {c : Claim} (h : s.arbiter.claims.get k = some c) (u : FaultUnit) :
    dropNotices reason [k] s u = u.take (.claimDropped k c.station reason) := by
  simp [dropNotices, h]

/-- What is left of the claim in a slot that is dropped alone. -/
theorem dropClaims_single {reason : DropReason} {c : Claim} (h : s.arbiter.claims.get k = some c) :
    Beside s (dropClaims reason [k] s) ∧ (dropClaims reason [k] s).arbiter.claims.get k = none ∧
      (SoundTables s → (dropClaims reason [k] s).faultUnit = s.faultUnit.take (.claimDropped k c.station reason)) := by
  refine ⟨(dropClaims_worked reason [k] s).toBeside, ?_, fun hs => ?_⟩
  · rw [dropClaims_eq]
    exact freeSlots_none List.mem_cons_self
  · rw [dropClaims_eq, (freeSlots_quiet (by exact hs)).2]
    exact dropNotices_single h _

end Sys2Proof.Machine
end

section
/-! SUPPORT. Channel presence (R116, R117), the answers that end a claim or let it wait (R90, R93), and the S-link's handing over to
ISLAND (R109). -/

namespace Sys2Proof.Machine

variable {s t : State} {k c station slot number : Nat}

/-! ### Channel presence (R116, R117) -/

theorem freeSlots_nil (s : State) : freeSlots [] s = s := by
  have hheld : heldBy s [] = [] := List.filter_eq_nil_iff.mpr fun _ _ => nofun
  rw [freeSlots_eq, hheld]
  rfl

/-- A drop of no claim changes nothing. -/
theorem dropClaims_nil (reason : DropReason) (s : State) : dropClaims reason [] s = s := by
  rw [dropClaims_eq]
  exact freeSlots_nil s

theorem channelLost_none (h : ∀ k < 16, ∀ d, s.arbiter.claims.get k = some d → d.channel ≠ c) : channelLost c s = s := by
  have hslots : slotsWhere s (fun d => decide (d.channel = c)) = [] := List.eq_nil_iff_forall_not_mem.mpr fun k hk => by
    obtain ⟨hlt, d, hd, hchannel⟩ := mem_slotsWhere.mp hk
    exact h k hlt d hd (of_decide_eq_true hchannel)
  unfold channelLost
  rw [hslots, dropClaims_nil]

theorem dropClaims_claim {reason : DropReason} {ks : List Nat} {d : Claim}
    (h : (dropClaims reason ks s).arbiter.claims.get k = some d) :
    k ∉ ks ∧ ∃ e, s.arbiter.claims.get k = some e ∧ d.identity = e.identity := by
  rw [dropClaims_eq] at h
  obtain ⟨e, he, hid⟩ := (Rearranged.freeSlots ks _).claim h
  rw [emptied_get] at he
  split at he
  · cases he
  · next hno => exact ⟨hno, e, he, hid⟩

theorem channelLost_channel {d : Claim} (hk : k < 16) (h : (channelLost c s).arbiter.claims.get k = some d) :
    d.channel ≠ c := by
  obtain ⟨hno, e, he, hid⟩ := dropClaims_claim h
  have hchannel : d.identity.channel = e.identity.channel := by rw [hid]
  exact fun hc => hno (mem_slotsWhere.mpr ⟨hk, e, he, decide_eq_true (hchannel.symm.trans hc)⟩)

theorem exec_presence_of_run (h : 64 ≤ s.crosspoint.runs.get c) :
    exec (.channelPresenceChange c) s = settled (changePresence c s) := congrArg settled (if_pos h)

theorem changePresence_absent (h : s.crosspoint.presence.get c = .absent) :
    changePresence c s = setPresence c .present (setRun c 0 s) := by
  rw [changePresence, h]

theorem changePresence_lost (h : s.crosspoint.presence.get c = .lost) :
    changePresence c s = removeFault (.sourceLost c) (setPresence c .present (setRun c 0 s)) := by
  rw [changePresence, h]

theorem changePresence_present (h : s.crosspoint.presence.get c = .present) :
    changePresence c s = channelLost c (addFault (.sourceLost c) (setPresence c .lost (setRun c 0 s))) := by
  rw [changePresence, h]

/-- Settles O47. -/
theorem presenceChanges : Obligations.PresenceChanges := by
  refine fun c s _ => ⟨fun hrun => congrArg settled (if_neg (Nat.not_le.mpr hrun)), fun hrun => ⟨fun hp => ?absent, fun hp => ?lost,
    fun hp => ⟨_, (exec_presence_of_run hrun).trans (congrArg settled (changePresence_present hp)), ?present⟩⟩⟩
  case absent => exact (exec_presence_of_run hrun).trans (congrArg settled (changePresence_absent hp))
  case lost => exact (exec_presence_of_run hrun).trans (congrArg settled (changePresence_lost hp))
  case present =>
    have hbeside := (channelLost_worked c (addFault (.sourceLost c) (setPresence c .lost (setRun c 0 s)))).toBeside
    refine ⟨hbeside.presence, hbeside.runs, hbeside.samples, fun k hk d hd => channelLost_channel hk hd, fun hno => ?_⟩
    exact channelLost_none (by exact hno)

/-! ### Answers (R90, R93) -/

theorem answeredClaim_eq_none (h : ∀ c timer, s.arbiter.claims.get slot = some c → c.state = .confirming number timer →
    c.station ≠ station) : answeredClaim s station slot number = none := by
  unfold answeredClaim
  split
  · next c hc =>
    split
    · next n timer hstate => exact if_neg fun hboth => h c timer hc (by rw [hstate, hboth.2]) hboth.1
    · rfl
  · rfl

theorem answeredClaim_eq_some {c : Claim} {timer : Nat} (hc : s.arbiter.claims.get slot = some c)
    (hstate : c.state = .confirming number timer) (hstation : c.station = station) :
    answeredClaim s station slot number = some c := by
  simp [answeredClaim, hc, hstate, hstation]

theorem answer_eq (f : Nat → Claim → State → State) : answer f station slot number s =
    match answeredClaim s station slot number with
    | some c => f slot c s
    | none => s := rfl

theorem answer_of_none (f : Nat → Claim → State → State) (h : answeredClaim s station slot number = none) :
    answer f station slot number s = s := by
  rw [answer_eq, h]

theorem answer_of_some (f : Nat → Claim → State → State) {c : Claim} (h : answeredClaim s station slot number = some c) :
    answer f station slot number s = f slot c s := by
  rw [answer_eq, h]

theorem onClaim_eq_set {c : Claim} (f : Claim → Claim) {a : Arbiter} (h : a.claims.get k = some c) :
    a.onClaim k f = { a with claims := a.claims.set k (some (f c)) } := by
  rw [Arbiter.onClaim, h]
  rfl

theorem takeWait_limit {c : Claim} (h : 3 ≤ c.waitCount) : takeWait slot c s = dropClaims .retryLimit [slot] s :=
  if_pos (by omega)

theorem takeWait_waits {c : Claim} (hc : s.arbiter.claims.get slot = some c) (h : c.waitCount < 3) :
    takeWait slot c s =
      (headerUsed s).onArbiter fun a => { a with
        claims := a.claims.set slot (some { c with
          waitCount := c.waitCount + 1, state := .waiting (16 * headerValue Header.retryInterval s) }) } := by
  rw [takeWait, if_neg (by omega), readTiming_value]
  have hused : (headerUsed s).arbiter.claims.get slot = some c := by rwa [headerUsed_arbiter]
  exact congrArg (fun a => { headerUsed s with arbiter := a }) (onClaim_eq_set _ hused)

/-- Settles O42. -/
theorem answersThatEndOrWait : Obligations.AnswersThatEndOrWait := by
  refine fun station slot number s => ⟨fun h => ?unheard, fun c timer hc hstate hstation => ?heard⟩
  case unheard =>
    have hnone := answeredClaim_eq_none h
    exact ⟨congrArg settled (answer_of_none _ hnone), congrArg settled (answer_of_none _ hnone),
      congrArg settled (answer_of_none _ hnone), congrArg settled (answer_of_none _ hnone)⟩
  case heard =>
    have hsome := answeredClaim_eq_some hc hstate hstation
    have hdropped (reason : DropReason) := dropClaims_single (reason := reason) hc
    rw [hstation] at hdropped
    refine ⟨⟨_, congrArg settled (answer_of_some _ hsome), hdropped _⟩, fun hlimit => ⟨_, congrArg settled ?_, hdropped _⟩,
      fun hwaits => congrArg settled ((answer_of_some _ hsome).trans (takeWait_waits hc hwaits)),
      fun hpresence => ⟨_, ?_, rfl⟩⟩
    · exact (answer_of_some _ hsome).trans (takeWait_limit hlimit)
    · refine congrArg settled ((answer_of_some _ hsome).trans (Eq.trans ?_ (answer_of_some _ hsome).symm))
      exact if_neg hpresence

/-! ### The S-link leaves UP (R109) -/

/-- No claim is in the table. -/
def Vacant (s : State) : Prop := ∀ k, s.arbiter.claims.get k = none

theorem Rearranged.vacant (h : Rearranged s t) (hs : Vacant s) : Vacant t := fun k => (h.none_iff k).mpr (hs k)

theorem Vacant.testPending (h : Vacant s) : testPending s = s := by
  have hpending : pendingSlots s = [] := by
    unfold pendingSlots
    rw [indices, List.filter_eq_nil_iff.mpr fun k _ => by simp [h k]]
    rfl
  have hreads : testReads s [] = [] := List.filter_eq_nil_iff.mpr fun _ _ => nofun
  rw [Machine.testPending, hpending, wouldWinTest, hreads]
  rfl

/-- The slots that hold a claim. -/
def usedSlots (s : State) : List Nat := slotsWhere s fun _ => true

theorem emptied_usedSlots (h : t.arbiter = s.arbiter) : Vacant (t.onArbiter (Arbiter.emptied (usedSlots s))) := by
  intro k
  rw [emptied_get]
  split
  · rfl
  · next hno =>
    rw [h]
    rcases hk : s.arbiter.claims.get k with _ | c
    · rfl
    · refine absurd (mem_slotsWhere.mpr ⟨?_, c, hk, rfl⟩) hno
      refine Classical.byContradiction fun hlt => ?_
      rw [Tab.get_beyond _ (Nat.not_lt.mp hlt)] at hk
      cases hk

/-- What is left when every claim has been dropped: the zones they held are chosen again, and there is none to test. -/
theorem dropAll_eq (reason : DropReason) (s : State) :
    ∃ u, u = s.onFaultUnit (dropNotices reason (usedSlots s) s) ∧ Vacant (u.onArbiter (Arbiter.emptied (usedSlots s))) ∧
      dropAll reason s = chooseHolders (heldBy u (usedSlots s)) (u.onArbiter (Arbiter.emptied (usedSlots s))) := by
  have hvacant : Vacant ((s.onFaultUnit (dropNotices reason (usedSlots s) s)).onArbiter (Arbiter.emptied (usedSlots s))) :=
    emptied_usedSlots rfl
  refine ⟨_, rfl, hvacant, (dropClaims_eq reason (usedSlots s) s).trans ?_⟩
  rw [freeSlots_eq]
  dsimp only
  split
  · exact ((Rearranged.chooseHolders _ _).vacant hvacant).testPending
  · rfl

theorem dropAll_vacant (reason : DropReason) (s : State) : Vacant (dropAll reason s) := by
  obtain ⟨u, -, hvacant, h⟩ := dropAll_eq reason s
  rw [h]
  exact (Rearranged.chooseHolders _ _).vacant hvacant

theorem dropAll_router (reason : DropReason) (s : State) : (dropAll reason s).router = s.router := by
  obtain ⟨u, rfl, -, h⟩ := dropAll_eq reason s
  rw [h, chooseHolders_router]
  rfl

theorem dropAll_faultUnit {reason : DropReason} (hs : SoundTables s) :
    (dropAll reason s).faultUnit = dropNotices reason (usedSlots s) s s.faultUnit := by
  obtain ⟨u, rfl, -, h⟩ := dropAll_eq reason s
  rw [h]
  exact (chooseHolders_quiet _ (by exact hs)).faultUnit

/-- Where no claim is in the table, no zone is held by one. -/
theorem Vacant.holders (h : Vacant s) {z : Nat} (hl : HolderLaw s z) (k : Nat) : s.arbiter.holders.get z ≠ .slot k := by
  by_cases hr : s.arbiter.reserved = some z
  · rw [(hl.reserved hr).1]
    nofun
  · rw [hl.winner hr]
    exact winner_ne_slot (h k) z

namespace FaultUnit

variable {u : FaultUnit} {f g : FaultId}

theorem take_list (n : Notice) (u : FaultUnit) : (u.take n).list = u.list ∧ (u.take n).overflow = u.overflow := by
  unfold take enter
  split
  · exact ⟨rfl, rfl⟩
  · split <;> exact ⟨rfl, rfl⟩

theorem take_listed (n : Notice) (u : FaultUnit) (f : FaultId) : (u.take n).listed f = u.listed f := by
  rw [listed, (take_list n u).1, listed]

/-- What a removal leaves listed. -/
theorem remove_list (f : FaultId) (seconds : Nat) (u : FaultUnit) :
    (u.remove f seconds).list = u.list.filter fun e => decide (e.fault ≠ f) := by
  by_cases h : ∃ e ∈ u.list, e.fault = f
  · rw [remove_of_listed h]
    exact (take_list _ _).1
  · rw [remove_of_not_listed h]
    exact (List.filter_eq_self.mpr fun e he => decide_eq_true fun hf : e.fault = f => h ⟨e, he, hf⟩).symm

theorem remove_listed_iff {seconds : Nat} : (u.remove f seconds).listed g = true ↔ u.listed g = true ∧ g ≠ f := by
  rw [listed_iff, remove_list, listed_iff]
  constructor
  · rintro ⟨e, he, rfl⟩
    obtain ⟨hmem, hne⟩ := List.mem_filter.mp he
    exact ⟨⟨e, hmem, rfl⟩, of_decide_eq_true hne⟩
  · rintro ⟨⟨e, he, rfl⟩, hne⟩
    exact ⟨e, List.mem_filter.mpr ⟨he, decide_eq_true hne⟩, rfl⟩

theorem remove_overflow {seconds : Nat} (h : u.listed g = true) (hne : g ≠ f) :
    (u.remove f seconds).overflow = u.overflow := by
  by_cases hlisted : ∃ e ∈ u.list, e.fault = f
  · obtain ⟨e, he, rfl⟩ := listed_iff.mp h
    have hstays : u.list.filter (fun e => decide (e.fault ≠ f)) ≠ [] :=
      List.ne_nil_of_mem (List.mem_filter.mpr ⟨he, decide_eq_true hne⟩)
    rw [remove_of_listed hlisted, (take_list _ _).2, withList_eq]
    exact if_neg hstays
  · rw [remove_of_not_listed hlisted]

/-- The removal of several faults, one after the other. -/
def removeAll (fs : List FaultId) (seconds : Nat) (u : FaultUnit) : FaultUnit := fs.foldl (fun v f => v.remove f seconds) u

theorem removeAll_listed_iff {fs : List FaultId} {seconds : Nat} :
    (u.removeAll fs seconds).listed g = true ↔ u.listed g = true ∧ g ∉ fs := by
  induction fs generalizing u with
  | nil => simp [removeAll]
  | cons f fs ih =>
    refine ih.trans ?_
    rw [remove_listed_iff, List.mem_cons, not_or, and_assoc]

theorem removeAll_overflow {fs : List FaultId} {seconds : Nat} (h : u.listed g = true) (hne : g ∉ fs) :
    (u.removeAll fs seconds).overflow = u.overflow := by
  induction fs generalizing u with
  | nil => rfl
  | cons f fs ih =>
    obtain ⟨hgf, hfs⟩ := not_or.mp (mt List.mem_cons.mpr hne)
    exact (ih (remove_listed_iff.mpr ⟨h, hgf⟩) hfs).trans (remove_overflow h hgf)

theorem add_listed_or_full (f : FaultId) (seconds : Nat) (h : FaultUnitLaw u) :
    (u.add f seconds).listed f = true ∨ ((u.add f seconds).overflow = true ∧ (u.add f seconds).list = u.list ∧ u.list.length = 64) := by
  by_cases hlisted : ∃ e ∈ u.list, e.fault = f
  · rw [add_of_listed hlisted]
    exact .inl (listed_iff.mpr hlisted)
  · rcases Nat.lt_or_ge u.list.length 64 with hroom | hfull
    · rw [add_of_room hlisted hroom, take_listed]
      exact .inl (listed_iff.mpr ⟨{ fault := f, stamp := seconds }, List.mem_append_right _ List.mem_cons_self, rfl⟩)
    · rw [add_of_full hlisted hfull]
      exact .inr ⟨rfl, rfl, Nat.le_antisymm h.listSize hfull⟩

/-- A list of more faults than those named holds another. -/
theorem exists_listed_not_mem {fs : List FaultId} (h : FaultUnitLaw u) (hlength : fs.length < u.list.length) :
    ∃ g, u.listed g = true ∧ g ∉ fs := by
  refine Classical.byContradiction fun hno => ?_
  have hsub : u.list.map FaultEntry.fault ⊆ fs := fun f hf => by
    obtain ⟨e, he, rfl⟩ := List.mem_map.mp hf
    exact Classical.not_not.mp fun hnot => hno ⟨_, listed_iff.mpr ⟨e, he, rfl⟩, hnot⟩
  have hle := length_le_of_subset h.noTwoAlike hsub
  rw [List.length_map] at hle
  omega

/-- A fault asked for just before fewer than 64 others are removed is listed, or the list has overflowed. -/
theorem listed_or_overflow {fs : List FaultId} {seconds : Nat} (h : FaultUnitLaw u) (hf : f ∉ fs) (hfs : fs.length < 64) :
    ((u.add f seconds).removeAll fs seconds).listed f = true ∨ ((u.add f seconds).removeAll fs seconds).overflow = true := by
  rcases add_listed_or_full f seconds h with hlisted | ⟨hoverflow, hlist, hfull⟩
  · exact .inl (removeAll_listed_iff.mpr ⟨hlisted, hf⟩)
  · obtain ⟨g, hg, hgfs⟩ := exists_listed_not_mem (h.add f seconds) (fs := fs) (by rw [hlist]; omega)
    exact .inr ((removeAll_overflow hg hgfs).trans hoverflow)

end FaultUnit

theorem foldl_removeFault (f : Nat → FaultId) (cs : List Nat) (s : State) :
    cs.foldl (fun t c => removeFault (f c) t) s = s.onFaultUnit (FaultUnit.removeAll (cs.map f) s.timer.seconds) := by
  induction cs generalizing s with
  | nil => rfl
  | cons c cs ih => exact ih (removeFault (f c) s)

theorem dropNotices_list (reason : DropReason) (ks : List Nat) (s : State) (u : FaultUnit) (f : FaultId) :
    (dropNotices reason ks s u).listed f = u.listed f ∧ (dropNotices reason ks s u).overflow = u.overflow := by
  induction ks generalizing u with
  | nil => exact ⟨rfl, rfl⟩
  | cons k ks ih =>
    rw [dropNotices_cons]
    rcases s.arbiter.claims.get k with _ | c
    · exact ih u
    · obtain ⟨hlisted, hoverflow⟩ := ih (u.take (.claimDropped k c.station reason))
      exact ⟨hlisted.trans (FaultUnit.take_listed _ _ _), hoverflow.trans (FaultUnit.take_list _ _).2⟩

/-- The channels that are LOST. -/
def lostChannels (s : State) : List Nat := indices 32 fun c => decide (s.crosspoint.presence.get c = .lost)

/-- The part on the way to ISLAND, before its claims are dropped (R109). -/
def islandBlocks (s : State) : State :=
  { s with
    sPort := { s.sPort with link := .island, established := true, partialCell := [] }
    timer := { s.timer with lock := .free }
    router := { s.router with zToS := [], places := [], confirms := [], sSending := [] }
    crosspoint := { s.crosspoint with presence := .const .lost, runs := .const 0, samples := .const 0 }
    faultUnit := FaultUnit.removeAll ((lostChannels s).map .sourceLost) s.timer.seconds
      (s.faultUnit.add .sLink s.timer.seconds) }

theorem sLinkIsland_eq (s : State) : sLinkIsland s = dropAll .link (islandBlocks s) := by
  unfold sLinkIsland crosspointLinkLost
  dsimp only
  rw [foldl_removeFault]
  rfl

/-- Settles O20. -/
theorem sLinkIslandHandsOver : Obligations.SLinkIslandHandsOver := by
  refine fun s => ⟨fun hlink hrun => ⟨sLinkIsland s, congrArg settled (if_pos ⟨hlink, hrun⟩), ?_⟩,
    fun h => congrArg settled (if_neg fun hboth => h.elim (absurd hboth.1) fun hlt => Nat.not_lt.mpr hboth.2 hlt)⟩
  have hbeside : Beside (islandBlocks s) (sLinkIsland s) := sLinkIsland_eq s ▸ (dropAll_worked .link _).toBeside
  have hvacant : Vacant (sLinkIsland s) := sLinkIsland_eq s ▸ dropAll_vacant .link _
  refine ⟨hbeside.sPort, hbeside.timer, ?router, fun c hc => ?channels, fun k _ => hvacant k, fun hl z hz => ?holders,
    fun hs hl => ?faults, hbeside.engine, hbeside.zPort, hbeside.edit⟩
  case router => rw [sLinkIsland_eq, dropAll_router]; rfl
  case channels =>
    rw [hbeside.presence, hbeside.runs, hbeside.samples]
    exact ⟨Tab.get_const _ hc, Tab.get_const _ hc, Tab.get_const _ hc⟩
  case holders =>
    have hkept : Kept .all .empty s .empty (sLinkIsland s) := .sLinkIsland
    exact hvacant.holders (holders_empty.mp (hkept.holder (holders_empty.mpr hl)) z hz)
  case faults =>
    have hunit : (sLinkIsland s).faultUnit = _ := sLinkIsland_eq s ▸ dropAll_faultUnit (s := islandBlocks s) (by exact hs)
    have hnotices (f : FaultId) := dropNotices_list .link (usedSlots (islandBlocks s)) (islandBlocks s) (islandBlocks s).faultUnit f
    unfold State.listed
    rw [hunit, (hnotices .sLink).1, (hnotices .sLink).2]
    refine ⟨fun c hc hlost => ?_, FaultUnit.listed_or_overflow hl (by simp) ?_⟩
    · rw [(hnotices _).1]
      refine Bool.eq_false_iff.mpr fun hlisted => (FaultUnit.removeAll_listed_iff.mp hlisted).2 ?_
      exact List.mem_map_of_mem (mem_indices.mpr ⟨hc, decide_eq_true hlost⟩)
    · have hcount : (lostChannels s).length ≤ 32 := Nat.le_trans (List.length_filter_le _ _) (Nat.le_of_eq List.length_range)
      rw [List.length_map]
      omega

end Sys2Proof.Machine
end

section
/-! SUPPORT. The Z-port settling its return periods (R111, R113, R114, R151). -/

namespace Sys2Proof.Machine

variable {s : State}

/-- The commands that settle the front part of their work first do it, and then take the Sequencer's messages. -/
theorem exec_zLinkUp_of (hlink : s.zPort.link = .down) (hrun : 16 ≤ s.zPort.goodRun) : exec .zLinkUp s = .next (zLinkUp s) :=
  congrArg _ (if_pos ⟨hlink, hrun⟩)

theorem exec_zLinkDown_of (hlink : s.zPort.link = .up) (hrun : 4 ≤ s.zPort.failedRun) : exec .zLinkDown s = settled (zLinkDown s) :=
  congrArg settled (if_pos ⟨hlink, hrun⟩)

theorem zPeriodSettle_good {l : List Byte} (h : frameGood 274 l = true) : zPeriodSettle (some l) s = zGood l s := if_pos h

theorem zPeriodSettle_fail {received : Option (List Byte)} (h : ∀ l, received = some l → frameGood 274 l = false) :
    zPeriodSettle received s = zFail s := by
  rcases received with _ | l
  · rfl
  · exact if_neg (by simp [h l rfl])

theorem zGood_down {l : List Byte} (h : s.zPort.link = .down) :
    zGood l s = zGoodInDown (s.onZPort fun p => { p with lastNumber := byteAt l 0 }) := by
  rw [zGood, h]

theorem zGood_up {l : List Byte} (h : s.zPort.link = .up) :
    zGood l s = zGoodInUp s.zPort.lastNumber l (s.onZPort fun p => { p with lastNumber := byteAt l 0 }) := by
  rw [zGood, h]

theorem zFail_down (h : s.zPort.link = .down) : zFail s = { s with zPort := { s.zPort with goodRun := 0 } } := by
  rw [zFail, h]
  rfl

theorem zFail_up (h : s.zPort.link = .up) :
    zFail s =
      let u := { s with zPort := { s.zPort with failedRun := s.zPort.failedRun + 1, partialCell := [] } }
      if 4 ≤ u.zPort.failedRun then zLinkDown u else u := by
  rw [zFail, h]
  rfl

theorem forwardZToS_eq (c : List Byte) (s : State) :
    forwardZToS c s = { s with router := { s.router with
      zToS := if s.sPort.link = .up ∧ s.router.zToS.length < 8 then s.router.zToS ++ [c] else s.router.zToS } } := by
  unfold forwardZToS
  split
  · rfl
  · rfl

/-- The Z-port after a good period in UP: its reports, and what is held of a cell (R111, R114). -/
def goodZPort (l : List Byte) (p : ZPort) : ZPort :=
  { p with
    lastNumber := byteAt l 0, failedRun := 0, reports := frameReports l
    partialCell := (rebuild (segmentAt l 257) (afterNumber (byteAt l 0) p.lastNumber p.partialCell)).1 }

/-- The Z-to-S queue after a good period in UP (R111, R151). -/
def goodZToS (l : List Byte) (s : State) : List (List Byte) :=
  match (rebuild (segmentAt l 257) (afterNumber (byteAt l 0) s.zPort.lastNumber s.zPort.partialCell)).2 with
  | some cell =>
    if cellGood cell = true ∧ s.sPort.link = .up ∧ s.router.zToS.length < 8 then s.router.zToS ++ [cell] else s.router.zToS
  | none => s.router.zToS

theorem zGood_in_up {l : List Byte} (h : s.zPort.link = .up) :
    zGood l s = returnFrameArrival
      { s with zPort := goodZPort l s.zPort, router := { s.router with zToS := goodZToS l s } } := by
  rw [zGood_up h]
  unfold goodZPort goodZToS zGoodInUp
  simp only [State.onZPort_zPort]
  rcases rebuild (segmentAt l 257) (afterNumber (byteAt l 0) s.zPort.lastNumber s.zPort.partialCell) with ⟨held, _ | cell⟩
  · rfl
  · refine congrArg returnFrameArrival ?_
    dsimp only
    by_cases hgood : cellGood cell = true
    · simp only [hgood, if_true, true_and]
      exact forwardZToS_eq cell _
    · simp only [hgood, Bool.false_eq_true, if_false, false_and]
      rfl

theorem frameReports_get (l : List Byte) {z : Nat} (hz : z < 128) :
    (frameReports l).get z = some (readReport l (1 + 2 * z)) := Tab.get_mapIdx _ _ hz

/-- Settles O23. -/
theorem zPeriodsSettle : Obligations.ZPeriodsSettle := by
  refine fun s received => ⟨fun hlink => ⟨?goodDown, fun hbad => ?badDown⟩, fun hlink => ⟨?goodUp, fun hbad => ?badUp⟩,
    exec_zLinkUp_of, fun h => congrArg _ (if_neg fun hup => h.elim (absurd hup.1) fun hlt => Nat.not_lt.mpr hup.2 hlt),
    fun hlink hrun => ⟨⟨_, exec_zLinkDown_of hlink hrun, rfl⟩, fun hidle => ?down⟩,
    fun h => congrArg settled (if_neg fun hdown => h.elim (absurd hdown.1) fun hlt => Nat.not_lt.mpr hdown.2 hlt)⟩
  case goodDown =>
    rintro l rfl hgood
    have hsettled := (zPeriodSettle_good hgood).trans (zGood_down hlink)
    refine ⟨fun hrun => congrArg settled (hsettled.trans (if_neg (Nat.not_le.mpr (Nat.succ_lt_succ hrun)))),
      fun hrun t ht => congrArg settled (hsettled.trans ((if_pos (Nat.succ_le_succ hrun)).trans ?_))⟩
    exact Host.Outcome.next.inj ((exec_zLinkUp_of (by exact hlink) (by exact Nat.succ_le_succ hrun)).symm.trans ht)
  case badDown => exact congrArg settled ((zPeriodSettle_fail hbad).trans (zFail_down hlink))
  case goodUp =>
    rintro l rfl hgood
    have hsettled := (zPeriodSettle_good (s := s) hgood).trans (zGood_in_up hlink)
    obtain ⟨t, ht, hworked⟩ := settled_worked (returnFrameArrival
      { s with zPort := goodZPort l s.zPort, router := { s.router with zToS := goodZToS l s } })
    have hbeside := ((returnFrameArrival_worked _).trans hworked).toBeside
    have hport : t.zPort = goodZPort l s.zPort := hbeside.zPort
    refine ⟨t, (congrArg settled hsettled).trans ht, ?_, ?_, ?_, hbeside.sPort, hbeside.timer, ⟨?_, ?_, ?_⟩, fun z hz => ?_⟩
    · rw [hport]; exact hlink
    · rw [hport]; rfl
    · rw [hport]; rfl
    · rw [hport]; rfl
    · exact congrArg Router.zToS hbeside.router
    · rw [hport]
      exact ht
    · rw [hport]
      refine (frameReports_get l hz).trans ?_
      rw [readReport, show 1 + 2 * z + 1 = 2 + 2 * z by omega]
  case badUp =>
    have hsettled := (zPeriodSettle_fail (s := s) hbad).trans (zFail_up hlink)
    refine ⟨fun hrun => congrArg settled (hsettled.trans (if_neg (Nat.not_le.mpr (Nat.succ_lt_succ hrun)))),
      fun hrun => ⟨_, congrArg settled (hsettled.trans (if_pos (Nat.succ_le_succ hrun))), ?_⟩⟩
    exact exec_zLinkDown_of (by exact hlink) (by exact Nat.succ_le_succ hrun)
  case down =>
    refine (exec_zLinkDown_of hlink hrun).trans (congrArg settled ?_)
    unfold zLinkDown reportsAbsent
    have hnone : (((addFault .zLink (s.onZPort fun p => { p with link := .down, failedRun := 0 })).onZPort fun p =>
        { p with partialCell := [], reports := .const none })).sequencer.step.pilotZone = none := hidle
    rw [hnone]
    rfl

end Sys2Proof.Machine
end

section
/-! SUPPORT. Commit, validation and cancel of an edit (R11 to R13, R16, R18, R22, R164, R165). -/

namespace Sys2Proof.Machine

variable {q : Sender} {s t : State} {e : Edit}

/-! ### The answers to a commit held back -/

theorem handLaw_fillPlace {r : Router} (h : HandLaw r) (w : Waiting) (source : Nat) (body : AnswerBody) :
    HandLaw { r with places := fillPlace w source body r.places } := by
  rw [handLaw_iff] at h ⊢
  exact Nat.le_zero.mp (h ▸ hands_fillPlace w source body r.places)

/-- An answer to a commit does not see the place of the command in hand. -/
theorem answerCommit_reserved (status : Status) (data : List Byte) (s : State) :
    answerCommit status data (reservePlace q s) = reservePlace q (answerCommit status data s) := by
  show { s with router := { s.router with places := fillPlace _ _ _ (s.router.places ++ [_]) } } = _
  rw [fillPlace_other (w := .commit) (v := .command) (by decide)]
  rfl

theorem keepForCommit_reserved (h : HandLaw s.router) :
    keepForCommit (reservePlace q s) =
      { s with router := { s.router with places := s.router.places ++ [.reserved .commit q] } } := by
  show { s with router := { s.router with places := List.map _ (s.router.places ++ [_]) } } = _
  rw [List.map_append]
  refine congrArg (fun l => { s with router := { s.router with places := l ++ [Place.reserved .commit q] } }) ?_
  refine (List.map_congr_left (g := id) fun p hp => ?_).trans (List.map_id _)
  rcases p with ⟨_ | _, x⟩ | a
  · exact absurd rfl (h _ hp x)
  · rfl
  · rfl

/-! ### COMMIT and CANCEL at the Table Store -/

theorem isValidating_of_not_opened {p : EditPhase} (h : p ≠ .opened) : p.isValidating = true := by
  cases p
  · exact absurd rfl h
  · rfl
  · rfl

theorem editCommit_noEdit {station : Nat} (h : s.tables.edit = none) : editCommit station s = (s, some (.noEdit, [])) := by
  rw [editCommit, h]

theorem editCancel_noEdit {station : Nat} (h : s.tables.edit = none) : editCancel station s = (s, some (.noEdit, [])) := by
  rw [editCancel, h]

theorem editCommit_notOwner {station : Nat} (h : s.tables.edit = some e) (howner : e.owner ≠ station) :
    editCommit station s = (s, some (.notOwner, [])) := by
  rw [editCommit, h]
  exact if_pos howner

theorem editCancel_notOwner {station : Nat} (h : s.tables.edit = some e) (howner : e.owner ≠ station) :
    editCancel station s = (s, some (.notOwner, [])) := by
  rw [editCancel, h]
  exact if_pos howner

theorem editCommit_busy (h : s.tables.edit = some e) (hphase : e.phase ≠ .opened) :
    editCommit e.owner s = (s, some (.editBusy, [])) := by
  rw [editCommit, h]
  exact (if_neg (Classical.not_not.mpr rfl)).trans (if_pos (isValidating_of_not_opened hphase))

theorem editCommit_taken (h : s.tables.edit = some e) (hphase : e.phase = .opened) :
    editCommit e.owner s = (keepForCommit (s.setEdit (some e.committed)), none) := by
  rw [editCommit, h]
  exact (if_neg (Classical.not_not.mpr rfl)).trans (if_neg (by rw [EditPhase.isValidating_of_opened hphase]; exact Bool.noConfusion))

theorem editCancel_taken (h : s.tables.edit = some e) :
    editCancel e.owner s = (answerEnded e (s.setEdit none), some (.ok, [])) := by
  rw [editCancel, h]
  exact if_neg (Classical.not_not.mpr rfl)

theorem validationEnd_other (h : ∀ e, s.tables.edit = some e → e.phase ≠ .validating 0) : exec .validationEnd s = .next s := by
  show Host.Outcome.next _ = _
  rcases he : s.tables.edit with _ | e
  · rfl
  · refine congrArg Host.Outcome.next ?_
    dsimp only
    exact if_neg (h e he)

theorem validationEnd_of (he : s.tables.edit = some e) (h : e.phase = .validating 0) :
    exec .validationEnd s = .next (endValidation e s) := by
  show Host.Outcome.next _ = _
  rw [he]
  exact congrArg Host.Outcome.next (if_pos h)

/-! ### The checks of a validation, entry by entry (R11 to R13, R16, R18, R22) -/

theorem Tab.drop_items {α : Type} [Inhabited α] {n k : Nat} (t : Tab α n) (h : k < n) :
    t.items.drop k = t.get k :: t.items.drop (k + 1) := by
  have hk : k < t.items.length := by rwa [t.size]
  rw [List.drop_eq_getElem_cons hk, Tab.get, List.getD_eq_getElem?_getD, List.getElem?_eq_getElem hk]
  rfl

theorem Tab.drop_items_end {α : Type} {n : Nat} (t : Tab α n) : t.items.drop n = [] :=
  List.drop_eq_nil_of_le (Nat.le_of_eq t.size)

/-- A walk that at each place finds the place's failure, or goes on, finds the first failure. -/
theorem findSome?_range_of_walk {α : Type} {n : Nat} {f c : Nat → Option α} (hend : c n = none)
    (hstep : ∀ k < n, c k = (f k).or (c (k + 1))) : c 0 = (List.range n).findSome? f := by
  suffices h : ∀ m k, k + m = n → c k = (List.range' k m).findSome? f by
    rw [List.range_eq_range']
    exact h n 0 (Nat.zero_add n)
  intro m
  induction m with
  | zero =>
    rintro k rfl
    exact hend
  | succ m ih =>
    intro k hk
    rw [hstep k (by omega), ih (k + 1) (by omega), List.range'_succ, List.findSome?_cons]
    cases f k <;> rfl

/-- The first and last zone of the nearest non-empty storey below storey `k` (R11). -/
def belowStorey (im : Image) (k : Nat) : Option (Nat × Nat) :=
  ((List.range k).reverse.find? fun j => decide ((im.storeys.get j).count ≠ 0)).map fun j =>
    ((im.storeys.get j).first, (im.storeys.get j).first + (im.storeys.get j).count - 1)

theorem belowStorey_succ (im : Image) (k : Nat) : belowStorey im (k + 1) =
    if (im.storeys.get k).count = 0 then belowStorey im k
    else some ((im.storeys.get k).first, (im.storeys.get k).first + (im.storeys.get k).count - 1) := by
  unfold belowStorey
  rw [List.range_succ, List.reverse_append, List.reverse_singleton, List.singleton_append, List.find?_cons]
  by_cases h : (im.storeys.get k).count = 0 <;> simp [h]

theorem checkStoreys_range (im : Image) :
    checkStoreys im.header.storeyCount 0 none im.storeys.items = (List.range 96).findSome? (storeyFailure im) := by
  refine findSome?_range_of_walk (n := 96) (f := storeyFailure im)
    (c := fun k => checkStoreys im.header.storeyCount k (belowStorey im k) (im.storeys.items.drop k)) ?_ fun k hk => ?_
  · show checkStoreys _ _ _ (im.storeys.items.drop 96) = none
    rw [Tab.drop_items_end]
    rfl
  · show checkStoreys _ k _ (im.storeys.items.drop k) = (storeyFailure im k).or (checkStoreys _ (k + 1) _ _)
    rw [Tab.drop_items _ hk, belowStorey_succ, checkStoreys.eq_def]
    unfold storeyFailure
    dsimp only
    by_cases hcount : im.header.storeyCount ≤ k
    · by_cases hempty : (im.storeys.get k).count = 0 <;> simp [hcount, hempty]
    · rw [if_neg hcount, if_neg hcount]
      by_cases hempty : (im.storeys.get k).count = 0
      · simp [hempty]
      · simp only [if_neg hempty]
        by_cases hlast : 127 < (im.storeys.get k).first + (im.storeys.get k).count - 1
        · simp [hlast]
        · rw [if_neg hlast, if_neg hlast, belowStorey]
          rcases (List.range k).reverse.find? fun j => decide ((im.storeys.get j).count ≠ 0) with _ | j
          · rfl
          · dsimp only [Option.map_some]
            by_cases hfirst : (im.storeys.get k).first < (im.storeys.get j).first
            · simp [hfirst]
            · rw [if_neg hfirst, if_neg hfirst]
              split <;> simp

theorem checkZones_range (im : Image) : checkZones 0 im.zones.items = (List.range 128).findSome? (zoneFailure im) := by
  refine findSome?_range_of_walk (n := 128) (f := zoneFailure im) (c := fun k => checkZones k (im.zones.items.drop k)) ?_
    fun k hk => ?_
  · show checkZones _ (im.zones.items.drop 128) = none
    rw [Tab.drop_items_end]
    rfl
  · show checkZones k (im.zones.items.drop k) = (zoneFailure im k).or _
    rw [Tab.drop_items _ hk, checkZones, zoneFailure]
    split <;> simp

theorem checkDetections_range (im : Image) :
    checkDetections im.header.storeyCount 0 im.detections.items = (List.range 512).findSome? (detectionFailure im) := by
  refine findSome?_range_of_walk (n := 512) (f := detectionFailure im)
    (c := fun k => checkDetections im.header.storeyCount k (im.detections.items.drop k)) ?_ fun k hk => ?_
  · show checkDetections _ _ (im.detections.items.drop 512) = none
    rw [Tab.drop_items_end]
    rfl
  · show checkDetections _ k (im.detections.items.drop k) = (detectionFailure im k).or _
    rw [Tab.drop_items _ hk, checkDetections, detectionFailure]
    split <;> simp

/-! ### The walk of a chain (R22) -/

variable {steps : Tab StepRecord 256} {first k : Nat}

/-- The steps that a walk from `first` has reached before its `n`-th move, the last first. -/
def walkedSteps (steps : Tab StepRecord 256) (first n : Nat) : List Nat :=
  ((List.range n).reverse).filterMap (chainStep steps first)

/-- The delay of the step before the one reached after `n` moves. -/
def walkFloor (steps : Tab StepRecord 256) (first n : Nat) : Nat :=
  if n = 0 then 0 else ((chainStep steps first (n - 1)).map fun j => (steps.get j).delay).getD 0

/-- The walk at the step reached after `n` moves, none where the chain is not that long or the walk is over. -/
def walkFrom (steps : Tab StepRecord 256) (first n : Nat) : Option Failure :=
  if n = 32 then none
  else (chainStep steps first n).bind fun k =>
    walkChain steps (32 - n) (walkedSteps steps first n) (walkFloor steps first n) k

theorem chainStep_before {n : Nat} (h : chainStep steps first (n + 1) = some k) :
    ∃ j, chainStep steps first n = some j := by
  obtain ⟨j, hj, -⟩ := Option.bind_eq_some_iff.mp h
  exact ⟨j, hj⟩

theorem mem_walkedSteps {n next : Nat} (hk : chainStep steps first n = some k) :
    (next = k ∨ next ∈ walkedSteps steps first n) ↔
      ((List.range (n + 1)).any fun m => decide (chainStep steps first m = some next)) = true := by
  simp only [walkedSteps, List.mem_filterMap, List.mem_reverse, List.mem_range, List.any_eq_true, decide_eq_true_eq]
  constructor
  · rintro (rfl | ⟨m, hm, hnext⟩)
    · exact ⟨n, Nat.lt_succ_self n, hk⟩
    · exact ⟨m, Nat.lt_succ_of_lt hm, hnext⟩
  · rintro ⟨m, hm, hnext⟩
    rcases Nat.lt_succ_iff_lt_or_eq.mp hm with hlt | rfl
    · exact .inr ⟨m, hlt, hnext⟩
    · exact .inl (Option.some.inj (hnext.symm.trans hk))

theorem walkedSteps_succ {n : Nat} (hk : chainStep steps first n = some k) :
    walkedSteps steps first (n + 1) = k :: walkedSteps steps first n := by
  rw [walkedSteps, List.range_succ, List.reverse_append, List.reverse_singleton, List.singleton_append,
    List.filterMap_cons_some hk]
  rfl

theorem delayOrder_iff {n : Nat} (hk : chainStep steps first n = some k) :
    (1 ≤ n ∧ (chainStep steps first (n - 1)).any (fun j => decide ((steps.get k).delay < (steps.get j).delay)) = true) ↔
      (steps.get k).delay < walkFloor steps first n := by
  cases n with
  | zero => simp [walkFloor]
  | succ n =>
    obtain ⟨j, hj⟩ := chainStep_before hk
    simp [walkFloor, hj]

theorem walkFrom_step {n : Nat} (hn : n < 32) :
    walkFrom steps first n = (chainFailure steps first n).or (walkFrom steps first (n + 1)) := by
  unfold walkFrom chainFailure
  rw [if_neg (Nat.ne_of_lt hn)]
  rcases hk : chainStep steps first n with _ | k
  · simp [chainStep, hk]
  · have hleft : 32 - n = (31 - n) + 1 := by omega
    dsimp only [Option.bind_some]
    rw [hleft, walkChain]
    simp only [delayOrder_iff hk]
    by_cases hdelay : (steps.get k).delay < walkFloor steps first n
    · simp [hdelay]
    · rw [if_neg hdelay, if_neg hdelay]
      rcases hnext : (steps.get k).next with _ | next
      · simp [chainStep, hk, hnext]
      · have hstep : chainStep steps first (n + 1) = some next := by rw [chainStep, hk, Option.bind_some, hnext]
        dsimp only
        simp only [← mem_walkedSteps hk]
        by_cases hloop : next = k ∨ next ∈ walkedSteps steps first n
        · simp [hloop]
        · rw [if_neg hloop, if_neg hloop]
          by_cases hend : n = 31
          · simp [hend]
          · have hfloor : walkFloor steps first (n + 1) = (steps.get k).delay := by simp [walkFloor, hk]
            rw [if_neg (by omega), if_neg hend, if_neg (by omega), hstep, Option.none_or, Option.bind_some,
              walkedSteps_succ hk, hfloor, Nat.sub_add_eq, Nat.sub_right_comm]

theorem walkChain_range (steps : Tab StepRecord 256) (first : Nat) :
    walkChain steps 32 [] 0 first = (List.range 32).findSome? (chainFailure steps first) :=
  findSome?_range_of_walk (c := walkFrom steps first) rfl fun _ hn => walkFrom_step hn

theorem checkPlans_range (im : Image) : checkPlans im.steps im.plans.items = (List.range 16).findSome? (planFailure im) := by
  refine findSome?_range_of_walk (n := 16) (f := planFailure im)
    (c := fun k => checkPlans im.steps (im.plans.items.drop k)) ?_ fun k hk => ?_
  · show checkPlans _ (im.plans.items.drop 16) = none
    rw [Tab.drop_items_end]
    rfl
  · show checkPlans _ (im.plans.items.drop k) = (planFailure im k).or _
    rw [Tab.drop_items _ hk, planFailure]
    rcases im.plans.get k with _ | first
    · rfl
    · rw [checkPlans, walkChain_range, Option.bind_some]
      rcases (List.range 32).findSome? (chainFailure im.steps first) with _ | f <;> rfl

/-! ### The Station Authority Table (R16) -/

/-- A position below `k` is VACANT. -/
def vacantBelow (im : Image) (k : Nat) : Bool := (List.range k).any fun j => (im.authorities.get j).isNone

/-- The station of the last entry below `k`. -/
def stationBelow (im : Image) : Nat → Option Nat
  | 0 => none
  | k + 1 => match im.authorities.get k with
    | some e => some e.station
    | none => stationBelow im k

theorem vacantBelow_succ (im : Image) (k : Nat) :
    vacantBelow im (k + 1) = (vacantBelow im k || (im.authorities.get k).isNone) := by
  simp [vacantBelow, List.range_succ]

theorem authorityFailure_eq (im : Image) (k : Nat) : authorityFailure im k =
    (im.authorities.get k).bind fun e =>
      if vacantBelow im k then some { entry := authorityRef k, reason := .order }
      else if k = 0 then none
      else (im.authorities.get (k - 1)).bind fun before =>
        if e.station = before.station then some { entry := authorityRef k, reason := .duplicate }
        else if e.station < before.station then some { entry := authorityRef k, reason := .order }
        else none := rfl

theorem checkAuthorities_range (im : Image) :
    checkAuthorities 0 false none im.authorities.items = (List.range 32).findSome? (authorityFailure im) := by
  refine findSome?_range_of_walk (n := 32) (f := authorityFailure im)
    (c := fun k => checkAuthorities k (vacantBelow im k) (stationBelow im k) (im.authorities.items.drop k)) ?_ fun k hk => ?_
  · show checkAuthorities _ _ _ (im.authorities.items.drop 32) = none
    rw [Tab.drop_items_end]
    rfl
  · show checkAuthorities k _ _ (im.authorities.items.drop k) =
      (authorityFailure im k).or (checkAuthorities (k + 1) (vacantBelow im (k + 1)) (stationBelow im (k + 1)) _)
    rw [Tab.drop_items _ hk, vacantBelow_succ]
    rw [authorityFailure_eq]
    rcases he : im.authorities.get k with _ | e
    · simp [checkAuthorities, stationBelow, he]
    · rw [checkAuthorities.eq_def, Option.bind_some]
      dsimp only
      by_cases hvacant : vacantBelow im k = true
      · rw [if_pos hvacant, if_pos hvacant]
        rfl
      · rw [if_neg hvacant, if_neg hvacant, Bool.eq_false_iff.mpr hvacant]
        cases k with
        | zero => simp [stationBelow, he]
        | succ k =>
          have hsome : im.authorities.get k ≠ none := fun hnone => hvacant (by simp [vacantBelow_succ, hnone])
          obtain ⟨b, hb⟩ := Option.ne_none_iff_exists'.mp hsome
          rw [if_neg (Nat.succ_ne_zero k), Nat.add_sub_cancel, hb]
          simp only [stationBelow, hb, he, Option.bind_some]
          by_cases hsame : e.station = b.station
          · simp [hsame]
          · rw [if_neg hsame, if_neg hsame]
            split <;> simp

theorem validate_eq (im : Image) :
    validate im = (((((List.range 96).findSome? (storeyFailure im)).or ((List.range 128).findSome? (zoneFailure im))).or
      ((List.range 512).findSome? (detectionFailure im))).or ((List.range 16).findSome? (planFailure im))).or
        ((List.range 32).findSome? (authorityFailure im)) := by
  unfold validate
  rw [checkStoreys_range, checkZones_range, checkDetections_range, checkPlans_range, checkAuthorities_range]
  rcases (List.range 96).findSome? (storeyFailure im) with _ | f
  · rcases (List.range 128).findSome? (zoneFailure im) with _ | f
    · rcases (List.range 512).findSome? (detectionFailure im) with _ | f
      · rcases (List.range 16).findSome? (planFailure im) with _ | f <;> rfl
      · rfl
    · rfl
  · rfl

/-- Settles O57. -/
theorem editsAreCommittedAndCancelled : Obligations.EditsAreCommittedAndCancelled := by
  refine ⟨fun q s h => ?requests, fun s => ⟨validationEnd_other, fun e he hphase => ⟨fun f hf => ?failed, fun hnone => ?passed⟩⟩,
    fun im => ⟨checkStoreys_range im, checkZones_range im, checkDetections_range im, walkChain_range im.steps,
      checkPlans_range im, checkAuthorities_range im, validate_eq im⟩⟩
  case requests =>
    have hedit : (reservePlace q (lookedUp q s)).tables.edit = s.tables.edit := (lookedUp_worked q s).edit
    have hrouter : (lookedUp q s).router = s.router := (lookedUp_beside q s).1
    have hhand : HandLaw (lookedUp q s).router := hrouter ▸ h.hand
    refine ⟨fun hnone => ⟨congrArg settled (h.request_refused (editCommit_noEdit (hedit.trans hnone))),
      congrArg settled (h.request_refused (editCancel_noEdit (hedit.trans hnone)))⟩, fun e he => ?_⟩
    have he' := hedit.trans he
    refine ⟨fun howner => ⟨congrArg settled (h.request_refused (editCommit_notOwner he' howner)),
      congrArg settled (h.request_refused (editCancel_notOwner he' howner))⟩, ?_⟩
    refine ⟨fun howner hphase => ?busy, fun howner hphase => ⟨?commit, ?cancel⟩, fun howner hphase => ?cancelled⟩
    case busy => exact congrArg settled (h.request_refused (howner ▸ editCommit_busy he' hphase))
    case commit =>
      refine congrArg settled ((request_heard h.toEntitled (.inl h.bound)).trans ?_)
      rw [← howner, editCommit_taken he' hphase]
      exact keepForCommit_reserved (s := { lookedUp q s with
        tables := { (lookedUp q s).tables with edit := some e.committed } }) hhand
    case cancel =>
      refine congrArg settled (h.request_answered (v := (lookedUp q s).setEdit none) ?_ (congrArg Router.places hrouter))
      rw [← howner, editCancel_taken he', answerEnded_of_opened hphase]
      rfl
    case cancelled =>
      refine congrArg settled (h.toEntitled.request_answered (.inl h.bound)
        (v := answerCommit .noEdit [] ((lookedUp q s).setEdit none)) ?_ (handLaw_fillPlace hhand _ _ _))
      rw [← howner, editCancel_taken he', answerEnded_of_validating hphase]
      exact congrArg (·, some (Status.ok, [])) (answerCommit_reserved .noEdit [] ((lookedUp q s).setEdit none))
  case failed =>
    refine (validationEnd_of he hphase).trans (congrArg Host.Outcome.next ?_)
    rw [endValidation, hf]
    rfl
  case passed =>
    refine (validationEnd_of he hphase).trans (congrArg Host.Outcome.next ?_)
    rw [endValidation, hnone]
    rfl

end Sys2Proof.Machine
end

section
/-! SUPPORT. The opening of an edit (R2, R161): a mark on an index the header does not have reaches the staging copy of the header. -/

namespace Sys2Proof.Machine

/-- The header of a building of two storeys. -/
def twoStoreys : Header := { Header.powerOn with storeyCount := 2 }

/-- The part bound and quiet, its image as installed, and a mark at index 1 of the header's table, which has the one entry 0. -/
def markedBeyondHeader : State :=
  { State.reset with
    router := { State.reset.router with address := 10 }
    tables := { TableStore.fresh { Image.powerOn with header := twoStoreys } with marks := [{ table := .header, index := 1 }] } }

theorem markedBeyondHeader_noAuthorities : markedBeyondHeader.noAuthorities = true :=
  noAuthorities_iff.mpr ⟨fun _ hi => Tab.get_const none hi, by simp [markedBeyondHeader]⟩

theorem markedBeyondHeader_heard (q : Sender) : Heard q .configure markedBeyondHeader where
  place := by decide
  hand := by simp [HandLaw, markedBeyondHeader, State.reset]
  authority := by
    rw [authorityOf_empty markedBeyondHeader_noAuthorities]
    rfl
  bound := by decide

theorem markedBeyondHeader_sound : Sound markedBeyondHeader headerRef := by
  refine ⟨by decide, ?_⟩
  simp [State.passes, markedBeyondHeader, TableStore.fresh, flipOf]

theorem markedBeyondHeader_failing : failing markedBeyondHeader = [] := by decide +kernel

/-- The staging copy sets the header to its power-on contents wherever in its table a mark stands. -/
theorem markedBeyondHeader_staging : (stagingCopy markedBeyondHeader).header = Header.powerOn := by
  unfold stagingCopy
  rw [markedBeyondHeader_failing]
  rfl

theorem editBegin_opens {owner : Nat} {s : State} (hedit : s.tables.edit = none) (hquiet : s.quiet = true) :
    editBegin owner s = ((markFailing s).setEdit (some (newEdit owner (stagingCopy s))), some (.ok, [])) := by
  unfold editBegin
  rw [hedit, hquiet]
  rfl

theorem newEdit_staging (owner : Nat) (image : Image) : (newEdit owner image).staging = image := rfl

/-- The edit that EDIT BEGIN opens there. -/
theorem markedBeyondHeader_editBegin (q : Sender) : exec (.editBegin q) markedBeyondHeader =
    settled (answered q (.response 7 .ok [])
      (markedBeyondHeader.setEdit (some (newEdit q.station (stagingCopy markedBeyondHeader))))) := by
  have hlooked : lookedUp q markedBeyondHeader = markedBeyondHeader := by
    rw [lookedUp, authorityOf_empty markedBeyondHeader_noAuthorities]
  have hmark : markFailing (reservePlace q markedBeyondHeader) = reservePlace q markedBeyondHeader := by
    have hfailing : failing (reservePlace q markedBeyondHeader) = [] := markedBeyondHeader_failing
    rw [markFailing, hfailing]
    rfl
  refine congrArg settled ((markedBeyondHeader_heard q).request_answered ?_ rfl)
  rw [hlooked, editBegin_opens rfl rfl, hmark]
  rfl

/-- Refutes O56: the header is sound, for its one entry is unmarked and passes its check, yet the staging copy does not hold it;
the state's marks name an index 1 that the header's table does not have, and the copy resets the header for that mark. -/
theorem not_editsAreOpenedAndWritten : ¬ Obligations.EditsAreOpenedAndWritten := by
  intro h
  let q : Sender := { station := 5, tag := 0 }
  obtain ⟨-, -, hopens, -⟩ := h q markedBeyondHeader (markedBeyondHeader_heard q)
  obtain ⟨⟨t, e, hleaves, hedit, -, -, -, -, -, hstaged, -⟩, -⟩ := hopens rfl ⟨rfl, rfl⟩
  obtain ⟨hcopied, -⟩ := hstaged headerRef (by decide)
  have hdrained := Host.Outcome.next.inj (hleaves.symm.trans (markedBeyondHeader_editBegin q))
  have hsame : t.tables.edit = some (newEdit q.station (stagingCopy markedBeyondHeader)) := by
    rw [← (drain_worked drainFuel t).edit, hdrained, (drain_worked drainFuel _).edit]
    rfl
  have hstaging : e.staging = stagingCopy markedBeyondHeader :=  by
    rw [Option.some.inj (hedit.symm.trans hsame), newEdit_staging]
  have hheader : Entry.header (stagingCopy markedBeyondHeader).header = Entry.header twoStoreys :=
    hstaging ▸ hcopied markedBeyondHeader_sound
  rw [markedBeyondHeader_staging] at hheader
  exact absurd (Entry.header.inj hheader) (by decide)

end Sys2Proof.Machine
end

section
/-! SUPPORT. The Supervision Sequencer, operation by operation: what is left of the part where every entry is sound and no step is owed
(R127 to R142). -/

namespace Sys2Proof.Machine

variable {s t u : State} {z n level : Nat} {r : LastResult} {report : Option Report}

/-! ### Owed steps (R127 to R129) -/

theorem runSteps_stays (h : ¬(s.sequencer.step = .idle ∧ s.sequencer.latch = true)) (n : Nat) : runSteps n s = s := by
  cases n with
  | zero => rfl
  | succ n => exact if_neg h

theorem startOwed_busy (h : s.sequencer.step ≠ .idle) : startOwed s = s := runSteps_stays (fun hidle => h hidle.1) _

theorem startOwed_clear (h : s.sequencer.latch = false) : startOwed s = s :=
  runSteps_stays (fun hlatch => Bool.noConfusion (h.symm.trans hlatch.2)) _

theorem idle_pilotZone {p : StepState} (h : p.pilotZone ≠ none) : p ≠ .idle := fun hidle => h (hidle ▸ rfl)

theorem supervisionTick_deferred (h : s.sequencer.step = .deferred z n) :
    supervisionTick s =
      checkDeferral z (n + 1) (s.onSequencer fun q => { q.owe 1 with step := .deferred z (n + 1) }) := by
  rw [supervisionTick, h]

theorem supervisionTick_other (h : ∀ z n, s.sequencer.step ≠ .deferred z n) :
    supervisionTick s = startOwed (s.onSequencer (Sequencer.request 1)) := by
  unfold supervisionTick
  split
  · next hstep => exact absurd hstep (h _ _)
  · rfl

theorem request_eq (n : Nat) (q : Sequencer) : q.request n =
    if q.latch = false then { q with latch := true, overdue := min (q.overdue + (n - 1)) 255 }
    else { q with overdue := min (q.overdue + n) 255 } := rfl

theorem request_step (n : Nat) (q : Sequencer) : (q.request n).step = q.step := by
  rw [request_eq]
  split <;> rfl

/-- The deferral limit compared (R137). -/
theorem checkDeferral_eq (z n : Nat) (s : State) :
    checkDeferral z n s =
      if headerValue Header.deferralLimit s ≤ n then startOwed (endBusySkipped z (headerUsed s)) else headerUsed s := by
  rw [checkDeferral, readTiming_value]

theorem headerUsed_onSequencer (f : Sequencer → Sequencer) (s : State) :
    headerUsed (s.onSequencer f) = (headerUsed s).onSequencer f := by
  unfold headerUsed useEntry
  have hm : (s.onSequencer f).marked headerRef = s.marked headerRef := rfl
  have hp : (s.onSequencer f).passes headerRef = s.passes headerRef := rfl
  rw [hm, hp]
  split
  · rfl
  · split <;> rfl

theorem headerValue_onSequencer (f : Header → Nat) (g : Sequencer → Sequencer) (s : State) :
    headerValue f (s.onSequencer g) = headerValue f s := rfl

theorem headerUsed_sound (h : SoundTables s) : headerUsed s = s := congrArg Prod.fst (useEntry_sound (h headerRef))

theorem headerValue_sound (f : Header → Nat) (h : SoundTables s) : headerValue f s = f s.tables.fields.header := if_pos (h headerRef)

/-! ### The end of a step (R139 to R142) -/

theorem scrubNext_sound (h : SoundTables s) :
    scrubNext s = s.onSequencer fun q => { q with scrubPointer := (q.scrubPointer + 1) % 128 } := by
  rw [scrubNext, scrubLine_sound fun r _ => h r]

/-- The Sequencer once the step on zone `z` has been closed (R142). -/
def Sequencer.closed (z : Nat) (q : Sequencer) : Sequencer :=
  { q with pointer := (z + 1) % 128, scrubPointer := (q.scrubPointer + 1) % 128, step := .idle }

theorem closeStep_sound (h : SoundTables s) : closeStep z s = s.onSequencer fun q => (q.closed z).passOwed := by
  unfold closeStep
  rw [scrubNext_sound (by exact h)]
  rfl

theorem passOwed_none {q : Sequencer} (h : q.overdue = 0) : q.passOwed = q :=
  if_neg fun howed => Nat.ne_of_gt howed.2 h

/-- The requests for line faults, from the zone's fields after the result (R141). -/
def lineFaultsAsked (z : Nat) (r : LastResult) (e : ZoneResult) (seconds : Nat) (u : FaultUnit) : FaultUnit :=
  match r with
  | .failed k => if e.failures = 2 then u.add (lineFault z k) seconds else u
  | .normal =>
    if e.normals = 2 then u.removeAll [.lineOpen z, .lineShort z, .earth z, .ampFail z, .noReport z] seconds else u
  | _ => u

theorem askLineFaults_eq (z : Nat) (r : LastResult) (s : State) :
    askLineFaults z r s = s.onFaultUnit (lineFaultsAsked z r (s.sequencer.zones.get z) s.timer.seconds) := by
  unfold askLineFaults lineFaultsAsked State.onFaultUnit
  cases r with
  | normal => dsimp only; split <;> rfl
  | failed k => dsimp only; split <;> rfl
  | notTested => rfl
  | busySkipped => rfl

theorem askLineFaults_faultUnit (z : Nat) (r : LastResult) (s : State) :
    (askLineFaults z r s).faultUnit = lineFaultsAsked z r (s.sequencer.zones.get z) s.timer.seconds s.faultUnit :=
  congrArg State.faultUnit (askLineFaults_eq z r s)

theorem soundTables_congr (h : t.tables = s.tables) : SoundTables t ↔ SoundTables s := by
  unfold SoundTables Sound State.marked State.passes
  rw [h]

/-- The zone fields after the result `r` on zone `z` (R140). -/
def Sequencer.counted (z : Nat) (r : LastResult) (q : Sequencer) : Tab ZoneResult 128 :=
  q.zones.set z (countResult r (q.zones.get z))

/-- What is left of a step without a reservation that ends with the result `r`, no step being owed (R140 to R142). -/
def stepEnded (z : Nat) (r : LastResult) (s : State) : State :=
  { s with
    faultUnit := lineFaultsAsked z r ((s.sequencer.counted z r).get z) s.timer.seconds s.faultUnit
    sequencer := { s.sequencer with
      step := .idle, pointer := (z + 1) % 128, scrubPointer := (s.sequencer.scrubPointer + 1) % 128
      zones := s.sequencer.counted z r } }

theorem stepEnded_faultUnit (z : Nat) (r : LastResult) (s : State) :
    (stepEnded z r s).faultUnit = (askLineFaults z r { s with sequencer := (stepEnded z r s).sequencer }).faultUnit :=
  (askLineFaults_faultUnit z r { s with sequencer := (stepEnded z r s).sequencer }).symm

/-- The result that a report gives on zone `z` (R139). -/
def resultOf (s : State) (z : Nat) (report : Option Report) : LastResult :=
  classify (s.tables.fields.zones.get z).low (s.tables.fields.zones.get z).high report

theorem recordResult_eq (h : SoundTables s) :
    recordResult z report s = { s with
      faultUnit := lineFaultsAsked z (resultOf s z report) ((s.sequencer.counted z (resultOf s z report)).get z)
        s.timer.seconds s.faultUnit
      sequencer := { s.sequencer with zones := s.sequencer.counted z (resultOf s z report) } } := by
  rw [recordResult_sound (h _)]
  exact askLineFaults_eq _ _ _

theorem closeStep_none (h : SoundTables s) (howed : s.sequencer.overdue = 0) :
    closeStep z s = s.onSequencer (Sequencer.closed z) := by
  rw [closeStep_sound h]
  exact congrArg (fun q => { s with sequencer := q }) (passOwed_none (q := s.sequencer.closed z) howed)

theorem endStep_sound (h : SoundTables s) (howed : s.sequencer.overdue = 0) :
    endStep z report s = stepEnded z (resultOf s z report) s := by
  rw [endStep, recordResult_eq h, closeStep_none (by exact h) (by exact howed)]
  rfl

theorem endBusySkipped_sound (h : SoundTables s) (howed : s.sequencer.overdue = 0) :
    endBusySkipped z s = stepEnded z .busySkipped s := by
  rw [endBusySkipped, closeStep_none (by exact h) (by exact howed)]
  rfl

theorem startOwed_stepEnded (h : s.sequencer.latch = false) : startOwed (stepEnded z r s) = stepEnded z r s := startOwed_clear h

/-! ### Confirm requests and the reservation of a free zone (R88, R89, R102) -/

/-- Some claims have entered CONFIRMING, and nothing else has changed. -/
def Asked (s t : State) : Prop :=
  t = { s with
    arbiter := { s.arbiter with claims := t.arbiter.claims, confirmCounter := t.arbiter.confirmCounter }
    router := { s.router with confirms := t.router.confirms } }

theorem Asked.refl (s : State) : Asked s s := rfl

theorem Asked.trans (h : Asked s t) (g : Asked t u) : Asked s u := by
  unfold Asked at h g ⊢
  rw [g, h]

theorem Asked.foldl {α : Type} {f : State → α → State} (h : ∀ t a, Asked s t → Asked t (f t a)) (l : List α) {t : State}
    (ht : Asked s t) : Asked s (l.foldl f t) := by
  induction l generalizing t with
  | nil => exact ht
  | cons a l ih => exact ih (ht.trans (h t a ht))

theorem Asked.tables (h : Asked s t) : t.tables = s.tables := by
  unfold Asked at h
  rw [h]

theorem Asked.sound (h : Asked s t) (hs : SoundTables s) : SoundTables t := (soundTables_congr h.tables).mpr hs

theorem Asked.enterConfirming (hs : SoundTables s) (k : Nat) : Asked s (enterConfirming k s) := by
  unfold Machine.enterConfirming
  split
  · exact .refl s
  · rw [readTiming_value, headerUsed_sound hs]
    rfl

theorem Asked.confirmWinners (hs : SoundTables s) (ks : List Nat) : Asked s (confirmWinners ks s) := by
  refine .foldl (fun t k ht => ?_) ks (.refl s)
  split
  · exact .enterConfirming (ht.sound hs) k
  · exact .refl t

theorem testPending_sound (hs : SoundTables s) : testPending s = confirmWinners (pendingSlots s) s := wouldWinTest_sound _ hs

theorem Asked.testPending (hs : SoundTables s) : Asked s (testPending s) := testPending_sound hs ▸ .confirmWinners hs _

theorem Asked.holders (h : Asked s t) : t.arbiter.holders = s.arbiter.holders := by
  unfold Asked at h
  rw [h]

theorem Asked.reserved (h : Asked s t) : t.arbiter.reserved = s.arbiter.reserved := by
  unfold Asked at h
  rw [h]

theorem Asked.sequencer (h : Asked s t) : t.sequencer = s.sequencer := by
  unfold Asked at h
  rw [h]

/-- The holder law of zone `z` gives it no holder: its winner is of level 0. -/
theorem HolderLaw.winner_none (h : HolderLaw s z) (hfree : s.arbiter.reserved ≠ some z)
    (hnone : s.arbiter.holders.get z = Holder.none) : Machine.winner s z = (Holder.none, 0) := by
  have hwinner : (Machine.winner s z).1 = Holder.none := (h.winner hfree).symm.trans hnone
  unfold Machine.winner at hwinner ⊢
  generalize planCandidate s z = p, bestLive s z (List.range 16) = b at hwinner ⊢
  rcases p with _ | p <;> rcases b with _ | ⟨k, l, m⟩
  · rfl
  · cases hwinner
  · cases hwinner
  · dsimp only at hwinner
    split at hwinner <;> cases hwinner

theorem chooseHolder_sound (hs : SoundTables s) (z : Nat) : chooseHolder z s = decideHolder z s := by
  rw [chooseHolder_eq, touchZone_sound (hs _), ite_self]

theorem giveHolder_none (level : Nat) (h : s.arbiter.holders.get z = .none) : giveHolder z .none level s = s := by
  rw [giveHolder, if_pos h, if_neg nofun]

/-- The reservation asked for (R102). -/
def reserving (z : Nat) (s : State) : State := s.onArbiter fun a => { a with reserved := some z }

theorem winner_reserving (z y : Nat) (s : State) : winner (reserving z s) y = winner s y :=
  SameCandidates.winner ⟨rfl, rfl, rfl, fun _ _ => rfl⟩

/-- The choice that a grant makes leaves a zone with no holder as it is. -/
theorem reserve_free (hs : SoundTables s) (hlevel : (winner s z).2 < 3) (hnone : s.arbiter.holders.get z = .none) :
    reserve z s = testPending (reserving z s) := by
  have hchosen : chooseHolder z (reserving z s) = reserving z s := by
    rw [chooseHolder_sound (by exact hs), decideHolder, winner_reserving]
    refine (if_pos rfl).trans ((if_neg (Nat.not_le.mpr hlevel)).trans (giveHolder_none 0 ?_))
    exact hnone
  show choiceEvent [z] (reserving z s) = _
  rw [choiceEvent, if_neg (List.cons_ne_nil _ _)]
  exact congrArg testPending hchosen

theorem endOtherReservation_none (h : s.arbiter.reserved = none ∨ s.arbiter.reserved = some z) : endOtherReservation z s = s := by
  unfold endOtherReservation
  rcases h with h | h
  · rw [h]
  · rw [h]
    exact if_pos rfl

theorem requestReservation_free (hother : s.arbiter.reserved = none ∨ s.arbiter.reserved = some z)
    (hnone : s.arbiter.holders.get z = .none) : requestReservation z s = (reserve z s, 0) := by
  rw [requestReservation, endOtherReservation_none hother, if_pos hnone]

theorem requestReservation_held (hother : s.arbiter.reserved = none ∨ s.arbiter.reserved = some z)
    (hheld : s.arbiter.holders.get z ≠ .none) : requestReservation z s = (s, holderLevel s z) := by
  rw [requestReservation, endOtherReservation_none hother, if_neg hheld]

theorem HolderLaw.winner_low (h : HolderLaw s z) (hother : s.arbiter.reserved = Option.none ∨ s.arbiter.reserved = some z)
    (hnone : s.arbiter.holders.get z = Holder.none) : (Machine.winner s z).2 < 3 := by
  rcases hother with hr | hr
  · rw [h.winner_none (by rw [hr]; nofun) hnone]
    exact Nat.zero_lt_succ 2
  · exact (h.reserved hr).2

/-- What a grant leaves of the part (R102, R131). -/
theorem requestReservation_grants (hs : SoundTables s) (hl : HolderLaw s z)
    (hother : s.arbiter.reserved = none ∨ s.arbiter.reserved = some z) (hnone : s.arbiter.holders.get z = .none) :
    requestReservation z s = (testPending (reserving z s), 0) := by
  rw [requestReservation_free hother hnone, reserve_free hs (hl.winner_low hother hnone) hnone]

/-! ### Steps opened and started (R129 to R131) -/

theorem openStep_absent (h : s.sequencer.reportsAvailable = false) : openStep z s = endStep z none s := if_pos h

theorem openStep_asks (h : s.sequencer.reportsAvailable = true) :
    openStep z s = actOnAnswer z (requestReservation z s).2 (requestReservation z s).1 := by
  rw [openStep, h]
  rfl

theorem actOnAnswer_zero : actOnAnswer z 0 s = setStep (.pilot z) s := rfl

theorem actOnAnswer_inUse (h : 3 ≤ level) : actOnAnswer z level s = inUseTest z s :=
  (if_neg (by omega)).trans (if_pos h)

theorem actOnAnswer_defers (h : level = 1 ∨ level = 2) :
    actOnAnswer z level s = s.onSequencer fun q => { q with step := q.step.deferOn z } :=
  (if_neg (by omega)).trans (if_neg (by omega))

theorem search_finds {k : Nat} (hs : SoundTables s) (hz : z < 128)
    (hnone : ∀ j < k, (s.tables.fields.zones.get ((z + j) % 128)).supervised = false)
    (hfound : (s.tables.fields.zones.get ((z + k) % 128)).supervised = true) :
    search (k + 1 + n) z s = (s, some ((z + k) % 128)) := by
  induction k generalizing z with
  | zero =>
    rw [Nat.add_zero, Nat.mod_eq_of_lt hz] at hfound
    rw [show 0 + 1 + n = n + 1 by omega, search, useZone_sound (hs _)]
    refine (if_pos ⟨rfl, hfound⟩).trans ?_
    rw [Nat.add_zero, Nat.mod_eq_of_lt hz]
  | succ k ih =>
    have hfirst := hnone 0 (Nat.succ_pos k)
    rw [Nat.add_zero, Nat.mod_eq_of_lt hz] at hfirst
    have hshift (j : Nat) : ((z + 1) % 128 + j) % 128 = (z + (j + 1)) % 128 := by omega
    rw [show k + 1 + 1 + n = (k + 1 + n) + 1 by omega, search, useZone_sound (hs _)]
    refine (if_neg fun hboth => Bool.noConfusion (hfirst.symm.trans hboth.2)).trans ?_
    rw [ih (by omega) (fun j hj => by rw [hshift]; exact hnone (j + 1) (by omega)) (by rw [hshift]; exact hfound), hshift]

theorem search_none (hs : SoundTables s) (hz : z < 128)
    (hnone : ∀ z < 128, (s.tables.fields.zones.get z).supervised = false) : search n z s = (s, none) := by
  induction n generalizing z with
  | zero => rfl
  | succ n ih =>
    rw [search, useZone_sound (hs _)]
    exact (if_neg fun hboth => Bool.noConfusion ((hnone z hz).symm.trans hboth.2)).trans (ih (by omega))

/-- The part with the one owed step taken up. -/
def stepTaken (s : State) : State := s.onSequencer fun q => { q with latch := false }

theorem startStep_of_none (h : search 128 (stepTaken s).sequencer.pointer (stepTaken s) = (u, none)) :
    startStep s = (scrubNext u).onSequencer Sequencer.passOwed := by
  unfold stepTaken at h
  unfold startStep
  simp only [h]

theorem startStep_of_some (h : search 128 (stepTaken s).sequencer.pointer (stepTaken s) = (u, some z)) :
    startStep s = openStep z (u.onSequencer fun q => { q with pointer := z }) := by
  unfold stepTaken at h
  unfold startStep
  simp only [h]

theorem startStep_none (hs : SoundTables s) (hpointer : s.sequencer.pointer < 128)
    (hnone : ∀ z < 128, (s.tables.fields.zones.get z).supervised = false) :
    startStep s = s.onSequencer fun q =>
      Sequencer.passOwed { q with latch := false, scrubPointer := (q.scrubPointer + 1) % 128 } := by
  have hpointer' : (stepTaken s).sequencer.pointer < 128 := hpointer
  rw [startStep_of_none (search_none (s := stepTaken s) hs hpointer' hnone), scrubNext_sound (by exact hs)]
  rfl

theorem startStep_opens {k : Nat} (hs : SoundTables s) (hpointer : s.sequencer.pointer < 128) (hk : k < 128)
    (hnone : ∀ j < k, (s.tables.fields.zones.get ((s.sequencer.pointer + j) % 128)).supervised = false)
    (hfound : (s.tables.fields.zones.get ((s.sequencer.pointer + k) % 128)).supervised = true) :
    startStep s = openStep ((s.sequencer.pointer + k) % 128)
      (s.onSequencer fun q => { q with latch := false, pointer := (s.sequencer.pointer + k) % 128 }) := by
  have hpointer' : (stepTaken s).sequencer.pointer < 128 := hpointer
  have hsearch : search (k + 1 + (127 - k)) (stepTaken s).sequencer.pointer (stepTaken s) =
      (stepTaken s, some ((s.sequencer.pointer + k) % 128)) := search_finds hs hpointer' hnone hfound
  rw [show k + 1 + (127 - k) = 128 by omega] at hsearch
  rw [startStep_of_some hsearch]
  refine congrArg (openStep _) ?_
  rfl

end Sys2Proof.Machine
end

section
/-! SUPPORT. The statements about the Supervision Sequencer's steps (R127 to R138, R142). -/

namespace Sys2Proof.Machine

variable {s t u : State} {z n level count : Nat} {r : LastResult} {report : Option Report}

/-! ### Steps owed (R127, R128, R137) -/

theorem not_deferred_of_pilot {p : StepState} (h : p.pilotZone ≠ none) : ∀ z n, p ≠ .deferred z n :=
  fun _ _ hp => h (hp ▸ rfl)

theorem request_one {q : Sequencer} (hlatch : q.latch = false) (howed : q.overdue = 0) :
    q.request 1 = { q with latch := true } := by
  rw [request_eq, if_pos hlatch, howed]
  cases q
  cases howed
  rfl

theorem request_one_owed {q : Sequencer} (hroom : q.overdue < 255) :
    q.request 1 = ({ q with overdue := q.overdue + 1 } : Sequencer).passOwed := by
  rw [request_eq, Sequencer.passOwed, Nat.min_eq_left (by omega), Nat.min_eq_left (by omega)]
  by_cases hlatch : q.latch = false
  · rw [if_pos hlatch, if_pos ⟨hlatch, Nat.succ_pos _⟩]
    rfl
  · rw [if_neg hlatch, if_neg fun h => hlatch h.1]

/-- The Sequencer between one of the steps owed and the next, where no zone is supervised. -/
def Sequencer.scrubbed (latch : Bool) (overdue k : Nat) (q : Sequencer) : Sequencer :=
  { q with latch := latch, overdue := overdue, scrubPointer := (q.scrubPointer + k) % 128 }

theorem startStep_scrubs (hs : SoundTables s) (hpointer : s.sequencer.pointer < 128)
    (hnone : ∀ z < 128, (s.tables.fields.zones.get z).supervised = false) (latch : Bool) (overdue k : Nat) :
    startStep (s.onSequencer (Sequencer.scrubbed latch overdue k)) =
      s.onSequencer (Sequencer.scrubbed (decide (0 < overdue)) (overdue - 1) (k + 1)) := by
  rw [startStep_none (s := s.onSequencer (Sequencer.scrubbed latch overdue k)) hs hpointer hnone]
  have hscrub : ((s.sequencer.scrubPointer + k) % 128 + 1) % 128 = (s.sequencer.scrubPointer + (k + 1)) % 128 := by omega
  refine congrArg (fun q => { s with sequencer := q }) ?_
  show Sequencer.passOwed { s.sequencer with
    latch := false, overdue := overdue, scrubPointer := ((s.sequencer.scrubPointer + k) % 128 + 1) % 128 } = _
  rw [hscrub, Sequencer.passOwed]
  rcases overdue with _ | overdue <;> rfl

theorem runSteps_scrubs (hs : SoundTables s) (hpointer : s.sequencer.pointer < 128)
    (hnone : ∀ z < 128, (s.tables.fields.zones.get z).supervised = false) (hidle : s.sequencer.step = .idle) (m k : Nat) :
    runSteps (m + 1) (s.onSequencer (Sequencer.scrubbed true m k)) =
      s.onSequencer (Sequencer.scrubbed false 0 (k + (m + 1))) := by
  induction m generalizing k with
  | zero =>
    exact (if_pos ⟨hidle, rfl⟩).trans (startStep_scrubs hs hpointer hnone true 0 k)
  | succ m ih =>
    rw [runSteps, if_pos ⟨hidle, rfl⟩, startStep_scrubs hs hpointer hnone]
    refine (ih (k + 1)).trans ?_
    rw [Nat.add_right_comm k 1, Nat.add_assoc]

theorem request_scrubbed {q : Sequencer} (hlatch : q.latch = false) (howed : q.overdue = 0) (hscrub : q.scrubPointer < 128)
    (h1 : 1 ≤ count) (h128 : count ≤ 128) : q.request count = q.scrubbed true (count - 1) 0 := by
  rw [request_eq, if_pos hlatch, howed, Nat.min_eq_left (by omega), Sequencer.scrubbed, Nat.add_zero, Nat.mod_eq_of_lt hscrub,
    Nat.zero_add]

/-- Where no zone is supervised each step owed moves the scrub pointer on by 1 (R130). -/
theorem startOwed_scrubs (hs : SoundTables s) (hl : ZoneLaw s)
    (hnone : ∀ z < 128, (s.tables.fields.zones.get z).supervised = false) (hidle : s.sequencer.step = .idle)
    (hlatch : s.sequencer.latch = false) (howed : s.sequencer.overdue = 0) (h1 : 1 ≤ count) (h128 : count ≤ 128) :
    startOwed (s.onSequencer (Sequencer.request count)) =
      { s with sequencer := { s.sequencer with scrubPointer := (s.sequencer.scrubPointer + count) % 128 } } := by
  have hrequest : s.onSequencer (Sequencer.request count) = s.onSequencer (Sequencer.scrubbed true (count - 1) 0) :=
    congrArg (fun q => { s with sequencer := q }) (request_scrubbed hlatch howed hl.scrub h1 h128)
  rw [hrequest]
  refine (runSteps_scrubs hs hl.pointer hnone hidle (count - 1) 0).trans ?_
  rw [Nat.zero_add, Nat.sub_add_cancel h1, ← hlatch, ← howed]
  rfl

theorem sweep_owes (h1 : 1 ≤ count) (h128 : count ≤ 128) :
    sweep count s = (startOwed (s.onSequencer (Sequencer.request count)), .ok) := if_neg (by omega)

/-- Settles O48. -/
theorem stepsAreOwed : Obligations.StepsAreOwed := by
  refine ⟨fun s hpilot => congrArg settled ?pilot, fun s z n hstep hlimit => congrArg settled ?below,
    fun s z n hstep => ⟨?limit, fun hs hlimit hroom => congrArg settled ?reached⟩,
    fun q count s h => ⟨fun hbad => congrArg settled ?bad, fun h1 h128 hbusy => congrArg settled ?busy,
      fun h1 h128 hs hl hidle hlatch howed hnone => congrArg settled ?idle⟩⟩
  case pilot =>
    rw [supervisionTick_other (not_deferred_of_pilot hpilot), startOwed_busy]
    · rfl
    · rw [State.onSequencer_sequencer, request_step]
      exact idle_pilotZone hpilot
  case below =>
    rw [supervisionTick_deferred hstep, checkDeferral_eq, headerValue_onSequencer, if_neg (Nat.not_le.mpr hlimit),
      headerUsed_onSequencer]
    refine congrArg (fun q => { headerUsed s with sequencer := q }) ?_
    rw [headerUsed_sequencer]
    rfl
  case limit => exact congrArg settled (supervisionTick_deferred hstep)
  case reached =>
    rw [supervisionTick_deferred hstep, checkDeferral_eq, headerValue_onSequencer, headerValue_sound _ hs, if_pos hlimit,
      headerUsed_sound (by exact hs), endBusySkipped, closeStep_sound (by exact hs)]
    refine Eq.trans (b := startOwed _) ?_ (supervisionTick_other ?_).symm
    rotate_left
    · intro _ _ hdeferred
      cases hdeferred
    refine congrArg startOwed (congrArg (fun q => { s with sequencer := q }) ?_)
    rw [request_one_owed (by exact hroom)]
    refine congrArg Sequencer.passOwed ?_
    show ({ s.sequencer with overdue := min (s.sequencer.overdue + 1) 255, step := _, pointer := _, scrubPointer := _, zones := _ } :
      Sequencer) = _
    rw [Nat.min_eq_left (by omega)]
    rfl
  case bad => exact h.request_refused (by rw [sweep, if_pos hbad])
  case busy =>
    have hsweep : sweep count (reservePlace q (lookedUp q s)) =
        (reservePlace q ((lookedUp q s).onSequencer (Sequencer.request count)), .ok) := by
      rw [sweep_owes h1 h128, startOwed_busy]
      · rfl
      · rw [State.onSequencer_sequencer, request_step]
        exact hbusy
    exact h.request_answered (by rw [hsweep]; rfl) (congrArg Router.places (lookedUp_beside q s).1)
  case idle =>
    have hsweep : sweep count (reservePlace q (lookedUp q s)) = (reservePlace q { s with
        sequencer := { s.sequencer with scrubPointer := (s.sequencer.scrubPointer + count) % 128 } }, .ok) := by
      rw [lookedUp_sound hs, sweep_owes h1 h128, startOwed_scrubs (s := reservePlace q s) hs
        ⟨hl.pointer, hl.scrub, hl.step, hl.reserved⟩ hnone hidle hlatch howed h1 h128]
      rfl
    exact h.request_answered (by rw [hsweep]) rfl

/-! ### A pilot step on its way (R132 to R135) -/

theorem setStep_eq (p : StepState) (s : State) : setStep p s = { s with sequencer := { s.sequencer with step := p } } := rfl

/-- Settles O50. -/
theorem pilotStepsMoveOn : Obligations.PilotStepsMoveOn := by
  refine fun s z n => ⟨fun h => congrArg settled ?pilot, fun h hn => congrArg settled ?settle, fun h hn => congrArg settled ?window,
    fun h hsilent hn => congrArg settled ?sample, fun h => congrArg settled ?other, fun h => ?settleEnd, fun h => ?noSettleEnd,
    fun h => ⟨_, congrArg settled (if_pos h), congrArg settled ?abort⟩, fun h => congrArg settled (if_neg h),
    fun h => congrArg settled ?windowEnd⟩
  case pilot =>
    rw [returnFrameArrival, h]
    dsimp only
    rw [beginSettle, readTiming_value]
    rfl
  case settle =>
    rw [returnFrameArrival, h]
    dsimp only
    rw [if_neg (by omega)]
    rfl
  case window =>
    rw [returnFrameArrival, h]
    dsimp only
    rw [if_pos hn]
    rfl
  case sample =>
    rw [returnFrameArrival, h]
    dsimp only
    split
    · next r hr =>
      rw [hsilent r hr, if_neg Bool.noConfusion, if_neg (by omega)]
      rfl
    · rw [if_neg (by omega)]
      rfl
  case other =>
    unfold returnFrameArrival
    split
    · next hstep => rw [hstep] at h; cases h
    · next hstep => rw [hstep] at h; cases h
    · next hstep => rw [hstep] at h; cases h
    · rfl
  case settleEnd =>
    refine congrArg Host.Outcome.next ?_
    rw [h]
    rfl
  case noSettleEnd =>
    refine congrArg Host.Outcome.next ?_
    split
    · next hstep => exact absurd hstep (h _)
    · rfl
  case abort => exact supervisionTick_other fun _ _ => nofun
  case windowEnd =>
    split
    · next hstep => exact absurd hstep (h _)
    · rfl

end Sys2Proof.Machine
end

section
/-! SUPPORT. The statements about how the Supervision Sequencer's steps start and end (R129 to R138, R142). -/

namespace Sys2Proof.Machine

variable {s t u : State} {z n level count : Nat} {r : LastResult} {report : Option Report}

theorem owed_of_onSequencer {f : Sequencer → Sequencer} (hf : (f s.sequencer).overdue = s.sequencer.overdue)
    (howed : s.sequencer.overdue = 0) : (s.onSequencer f).sequencer.overdue = 0 := hf.trans howed

/-! ### Deferred steps (R131, R136, R137) -/

theorem holderReport_deferred (h : s.sequencer.step = .deferred z n) :
    holderReport z level s =
      if level = 0 then askDeferred z s else if 3 ≤ level then startOwed (inUseTest z s) else s := by
  rw [holderReport, h]
  exact if_pos rfl

theorem holderReport_other (h : (∀ n, s.sequencer.step ≠ .deferred z n) ∨ level = 1 ∨ level = 2) :
    holderReport z level s = s := by
  unfold holderReport
  split
  · next y n hstep =>
    split
    · next hy =>
      rcases h with h | h
      · exact absurd (hy ▸ hstep) (h n)
      · rw [if_neg (by omega), if_neg (by omega)]
    · rfl
  · rfl

/-- An in-use test ends the step with the report's result (R138). -/
theorem inUseTest_sound (hs : SoundTables s) (hlatch : s.sequencer.latch = false) (howed : s.sequencer.overdue = 0) :
    startOwed (inUseTest z s) = stepEnded z (resultOf s z (reportInUse s z)) s := by
  rw [inUseTest, endStep_sound hs howed, startOwed_stepEnded hlatch]

theorem startOwed_pilot (z : Nat) (s : State) : startOwed (setStep (.pilot z) s) = setStep (.pilot z) s :=
  startOwed_busy (s := setStep (.pilot z) s) nofun

/-- Settles O52. -/
theorem deferredStepsEnd : Obligations.DeferredStepsEnd := by
  refine fun s z level => ⟨fun h => congrArg settled (holderReport_other h), fun n h hlatch howed hs => ?deferred,
    fun h hbusy => congrArg settled ?otherAnswer, fun n h hz hr => congrArg settled ?pilot,
    fun h hz hlevel => congrArg settled ?defers, fun h => congrArg settled ?absent, rfl⟩
  case deferred =>
    have hended (c : Instr) (r : LastResult) (hc : exec c s = settled (stepEnded z r s)) :
        ∃ t, Leaves c s t ∧ t.faultUnit = (askLineFaults z r { s with sequencer := t.sequencer }).faultUnit ∧
          t = { s with
            faultUnit := t.faultUnit
            sequencer := { s.sequencer with
              step := .idle, pointer := (z + 1) % 128, scrubPointer := (s.sequencer.scrubPointer + 1) % 128
              zones := s.sequencer.counted z r } } :=
      ⟨stepEnded z r s, hc, stepEnded_faultUnit z r s, rfl⟩
    refine ⟨fun hlevel => hended _ _ (congrArg settled ?inUse), fun hlevel hz => hended _ _ (congrArg settled ?answered),
      fun habsent => hended _ _ (congrArg settled ?noReports), fun hz hl hr hnone havailable => ?reserves,
      fun hlimit => hended _ _ (congrArg settled ?limit), fun hlimit => congrArg settled ?below⟩
    case inUse =>
      rw [holderReport_deferred h, if_neg (by omega), if_pos hlevel, inUseTest_sound hs hlatch howed]
      rfl
    case answered =>
      rw [if_neg (by omega), h]
      dsimp only
      rw [if_pos rfl, actOnAnswer_inUse hlevel, inUseTest_sound hs hlatch howed]
      rfl
    case noReports =>
      rw [holderReport_deferred h, if_pos rfl, askDeferred, openStep_absent habsent, endStep_sound hs howed,
        startOwed_stepEnded hlatch]
      rfl
    case limit =>
      rw [h]
      dsimp only
      rw [checkDeferral_eq, headerValue_sound _ hs, if_pos hlimit, headerUsed_sound hs, endBusySkipped_sound hs howed,
        startOwed_stepEnded hlatch]
    case below =>
      rw [h]
      dsimp only
      rw [checkDeferral_eq, headerValue_sound _ hs, if_neg (Nat.not_le.mpr hlimit), headerUsed_sound hs]
    case reserves =>
      have hasked : Asked (reserving z s) (testPending (reserving z s)) := .testPending hs
      have hworked := (requestReservation_worked z s).toBeside
      rw [requestReservation_grants hs (hl z hz) (.inl hr) hnone] at hworked
      refine ⟨setStep (.pilot z) (testPending (reserving z s)), congrArg settled ?_, { hworked with },
        hasked.reserved, hasked.holders, ?_⟩
      · rw [holderReport_deferred h, if_pos rfl, askDeferred, openStep_asks havailable,
          requestReservation_grants hs (hl z hz) (.inl hr) hnone, actOnAnswer_zero, startOwed_pilot]
      · exact congrArg (fun q : Sequencer => { q with step := .pilot z }) hasked.sequencer
  case otherAnswer =>
    split
    · rfl
    · split
      · next hstep => exact absurd hstep hbusy
      · next y m hstep =>
        refine if_neg fun hy => h m ?_
        rw [hstep, hy]
      · rfl
  case pilot =>
    rw [if_neg (not_or.mpr ⟨Nat.not_le.mpr hz, fun hone => hone.2 hr⟩), h]
    dsimp only
    rw [if_pos rfl, actOnAnswer_zero, startOwed_pilot]
    rfl
  case defers =>
    rw [if_neg (by omega), h]
    dsimp only
    rw [actOnAnswer_defers hlevel, startOwed_busy]
    · show { s with sequencer := { s.sequencer with pointer := z, step := s.sequencer.step.deferOn z } } = _
      rw [h]
      rfl
    · rw [State.onSequencer_sequencer]
      exact deferOn_ne_idle z _
  case absent =>
    rw [reportsAbsent, h]
    rfl

/-! ### Pilot steps that end (R133 to R135, R142) -/

/-- The reservation given up, before the choice that follows. -/
def unreserved (s : State) : State := s.onArbiter fun a => { a with reserved := none }

theorem winner_unreserved (s : State) (y : Nat) : winner (unreserved s) y = winner s y :=
  SameCandidates.winner ⟨rfl, rfl, rfl, fun _ _ => rfl⟩

theorem releaseReservation_of (h : s.arbiter.reserved = some z) :
    releaseReservation z s = testPending (chooseHolder z (unreserved s)) := by
  rw [releaseReservation, if_pos h, choiceEvent, if_neg (List.cons_ne_nil _ _)]
  rfl

/-- The choice of a zone that is not reserved gives it to its winner (R100). -/
theorem chooseHolder_free (hs : SoundTables s) (hfree : s.arbiter.reserved ≠ some z) :
    chooseHolder z s = giveHolder z (winner s z).1 (winner s z).2 s := by
  rw [chooseHolder_sound hs, decideHolder]
  exact if_neg hfree

/-- What is left of the arbiter when the reservation of `z` ends by release. -/
theorem releaseReservation_sound (hs : SoundTables s) (hz : z < 128) (hr : s.arbiter.reserved = some z) :
    (releaseReservation z s).tables = s.tables ∧ (releaseReservation z s).faultUnit = s.faultUnit ∧
      (releaseReservation z s).arbiter.reserved = none ∧
      (releaseReservation z s).arbiter.holders.get z = (winner s z).1 := by
  have hs' : SoundTables (unreserved s) := hs
  have hchoice := chooseHolder_quiet z hs'
  have hasked : Asked _ (testPending (chooseHolder z (unreserved s))) := .testPending (hchoice.sound hs')
  have hgiven := giveHolder_given z (winner s z).1 (winner s z).2 (unreserved s)
  have hchosen := chooseHolder_free (z := z) hs' nofun
  rw [winner_unreserved] at hchosen
  rw [releaseReservation_of hr]
  refine ⟨hasked.tables.trans hchoice.tables, ?_, ?_, ?_⟩
  · exact (testPending_quiet (hchoice.sound hs')).faultUnit.trans hchoice.faultUnit
  · rw [hasked.reserved, hchosen, hgiven.rest]
    rfl
  · rw [hasked.holders, hchosen, hgiven.holders z hz, if_pos rfl]

/-- What is left of the part when a pilot step on `z` has ended, no step being owed (R133, R142). -/
structure PilotEnded (z : Nat) (r : LastResult) (s t : State) : Prop where
  sequencer : t.sequencer = { s.sequencer with
    step := .idle, pointer := (z + 1) % 128, scrubPointer := (s.sequencer.scrubPointer + 1) % 128
    zones := s.sequencer.counted z r }
  faultUnit : t.faultUnit = (askLineFaults z r { s with sequencer := t.sequencer }).faultUnit
  reserved : t.arbiter.reserved = none
  holder : t.arbiter.holders.get z = (winner s z).1
  beside : Beside s t

theorem pilotEnded_endPilot (report : Option Report) (hs : SoundTables s) (hz : z < 128) (hr : s.arbiter.reserved = some z)
    (hlatch : s.sequencer.latch = false) (howed : s.sequencer.overdue = 0) :
    startOwed (endPilot z report s) = endPilot z report s ∧ PilotEnded z (resultOf s z report) s (endPilot z report s) := by
  have hrecorded := recordResult_eq (z := z) (report := report) hs
  generalize hu : recordResult z report s = u at hrecorded
  have hsequencer : u.sequencer = { s.sequencer with zones := s.sequencer.counted z (resultOf s z report) } := by rw [hrecorded]
  have hus : SoundTables u := (soundTables_congr (by rw [hrecorded])).mpr hs
  obtain ⟨htables, hunit, hreserved, hholder⟩ := releaseReservation_sound hus hz (by rw [hrecorded]; exact hr)
  have hvs := (soundTables_congr htables).mpr hus
  have hkept : (releaseReservation z u).sequencer = u.sequencer := releaseReservation_sequencer z u
  have hend : endPilot z report s = (releaseReservation z u).onSequencer (Sequencer.closed z) := by
    rw [endPilot, hu, closeStep_none hvs (by rw [hkept, hsequencer]; exact howed)]
  have hbeside := (endPilot_worked z report s).toBeside
  have hended : (endPilot z report s).sequencer = { s.sequencer with
      step := .idle, pointer := (z + 1) % 128, scrubPointer := (s.sequencer.scrubPointer + 1) % 128
      zones := s.sequencer.counted z (resultOf s z report) } := by
    rw [hend, State.onSequencer_sequencer, hkept, hsequencer]
    rfl
  refine ⟨startOwed_clear (by rw [hended]; exact hlatch), hended, ?_, ?_, ?_, hbeside⟩
  · rw [hended, askLineFaults_faultUnit, hend]
    exact hunit.trans (by rw [hrecorded])
  · rw [hend]
    exact hreserved
  · rw [hend]
    refine hholder.trans (congrArg Prod.fst ?_)
    rw [hrecorded]
    exact SameCandidates.winner ⟨rfl, rfl, rfl, fun _ _ => rfl⟩

/-- Settles O51. -/
theorem pilotStepsEnd : Obligations.PilotStepsEnd := by
  refine fun s z hs _ hz hr hlatch howed => ⟨fun n r h hreport hvalid => ?valid, fun n h hn hsilent => ?silent, fun h => ?window,
    fun h => ?absent⟩
  case valid =>
    obtain ⟨howedNone, hended⟩ := pilotEnded_endPilot (some r) hs hz hr hlatch howed
    refine ⟨_, congrArg settled ?_, hended.sequencer, hended.faultUnit, hended.reserved, hended.holder, hended.beside⟩
    rw [returnFrameArrival, h]
    dsimp only
    rw [hreport]
    exact (if_pos hvalid).trans howedNone
  case silent =>
    obtain ⟨howedNone, hended⟩ := pilotEnded_endPilot none hs hz hr hlatch howed
    refine ⟨_, congrArg settled ?_, hended.sequencer, hended.faultUnit, hended.reserved, hended.holder, hended.beside⟩
    rw [returnFrameArrival, h]
    dsimp only
    split
    · next r hreport => rw [hsilent r hreport, if_neg Bool.noConfusion, if_pos hn, howedNone]
    · rw [if_pos hn, howedNone]
  case window =>
    obtain ⟨howedNone, hended⟩ := pilotEnded_endPilot none hs hz hr hlatch howed
    refine ⟨_, congrArg settled ?_, hended.sequencer, hended.faultUnit, hended.reserved, hended.holder, hended.beside⟩
    rw [h]
    exact howedNone
  case absent =>
    obtain ⟨howedNone, hended⟩ := pilotEnded_endPilot (s := setAvailable false s) none hs hz hr hlatch howed
    refine ⟨_, congrArg settled ?_, hended.sequencer, hended.faultUnit, hended.reserved, hended.holder, { hended.beside with }⟩
    rw [reportsAbsent, h]
    exact howedNone

/-! ### Steps that start (R129 to R131) -/

theorem startOwed_one (hidle : s.sequencer.step = .idle) (hlatch : s.sequencer.latch = true) (howed : s.sequencer.overdue = 0) :
    startOwed s = startStep s := by
  rw [startOwed, howed]
  exact if_pos ⟨hidle, hlatch⟩

/-- The step on zone `z` is the one in hand. -/
def pointed (z : Nat) (s : State) : State := s.onSequencer fun q => { q with pointer := z }

/-- A tick in IDLE opens a step on the first supervised zone from the pointer on (R129, R130). -/
theorem supervisionTick_opens {k : Nat} (hs : SoundTables s) (hl : ZoneLaw s) (hidle : s.sequencer.step = .idle)
    (hlatch : s.sequencer.latch = false) (howed : s.sequencer.overdue = 0) (hk : k < 128)
    (hnone : ∀ j < k, (s.tables.fields.zones.get ((s.sequencer.pointer + j) % 128)).supervised = false)
    (hfound : (s.tables.fields.zones.get ((s.sequencer.pointer + k) % 128)).supervised = true) :
    supervisionTick s = openStep ((s.sequencer.pointer + k) % 128) (pointed ((s.sequencer.pointer + k) % 128) s) := by
  have hrequest : s.onSequencer (Sequencer.request 1) = s.onSequencer fun q => { q with latch := true } :=
    congrArg (fun q => { s with sequencer := q }) (request_one hlatch howed)
  have hopens := startStep_opens (s := s.onSequencer fun q => { q with latch := true }) hs hl.pointer hk hnone hfound
  rw [supervisionTick_other (by intro _ _; rw [hidle]; nofun), hrequest,
    startOwed_one (s := s.onSequencer fun q => { q with latch := true }) hidle rfl howed]
  refine hopens.trans (congrArg (openStep _) ?_)
  unfold pointed
  rw [← hlatch]
  rfl

/-- Settles O49. -/
theorem stepsStart : Obligations.StepsStart := by
  refine fun s hs hl hholders hr hidle hlatch howed => ⟨fun hnone => congrArg settled ?none, fun k hk hnone hfound => ?opens⟩
  case none =>
    rw [supervisionTick_other (by intro _ _; rw [hidle]; nofun)]
    exact startOwed_scrubs hs hl hnone hidle hlatch howed (Nat.le_refl 1) (by decide)
  case opens =>
    have htick := supervisionTick_opens hs hl hidle hlatch howed hk hnone hfound
    have hz : (s.sequencer.pointer + k) % 128 < 128 := Nat.mod_lt _ (by decide)
    generalize (s.sequencer.pointer + k) % 128 = z at htick hz
    have hended (r : LastResult) (report : Option Report) (hresult : resultOf s z report = r)
        (hopen : openStep z (pointed z s) = endStep z report (pointed z s)) :
        ∃ t, Leaves .supervisionTick s t ∧
          t.sequencer = { s.sequencer with
            step := .idle, pointer := (z + 1) % 128, scrubPointer := (s.sequencer.scrubPointer + 1) % 128
            zones := s.sequencer.zones.set z (countResult r (s.sequencer.zones.get z)) } ∧
          t.faultUnit = (askLineFaults z r { s with sequencer := t.sequencer }).faultUnit ∧ t.arbiter = s.arbiter ∧ Beside s t := by
      have hbeside := (endStep_worked z report (pointed z s)).toBeside
      rw [endStep_sound (s := pointed z s) hs howed] at hopen hbeside
      subst hresult
      refine ⟨stepEnded z (resultOf s z report) (pointed z s), congrArg settled (htick.trans hopen), rfl,
        stepEnded_faultUnit z _ (pointed z s), rfl, { hbeside with }⟩
    refine ⟨fun habsent => hended _ none rfl (openStep_absent habsent), fun havailable hlevel hheld => ?inUse,
      fun havailable hheld hlevel => congrArg settled ?defers, fun havailable hnone => ?reserves⟩
    case inUse =>
      refine hended _ (s.zPort.reports.get z) rfl ?_
      rw [openStep_asks (s := pointed z s) havailable, requestReservation_held (s := pointed z s) (.inl hr) hheld,
        actOnAnswer_inUse (by exact hlevel), inUseTest, reportInUse]
      exact congrArg (fun x => endStep z x (pointed z s)) (if_pos havailable)
    case defers =>
      rw [htick, openStep_asks (s := pointed z s) havailable, requestReservation_held (s := pointed z s) (.inl hr) hheld,
        actOnAnswer_defers (by exact hlevel)]
      refine congrArg (fun q => { s with sequencer := q }) ?_
      show ({ s.sequencer with pointer := z, step := s.sequencer.step.deferOn z } : Sequencer) = _
      rw [hidle]
      rfl
    case reserves =>
      have hlaw : HolderLaw (pointed z s) z := (hholders z hz).congr rfl Iff.rfl (SameCandidates.winner ⟨rfl, rfl, rfl, fun _ _ => rfl⟩)
      have hgrants := requestReservation_grants (s := pointed z s) hs hlaw (.inl hr) hnone
      have hasked : Asked (reserving z (pointed z s)) (testPending (reserving z (pointed z s))) := .testPending hs
      have hbeside := (requestReservation_worked z (pointed z s)).toBeside
      rw [hgrants] at hbeside
      refine ⟨setStep (.pilot z) (testPending (reserving z (pointed z s))), congrArg settled ?_, hasked.reserved, hasked.holders,
        ?_, { hbeside with }⟩
      · rw [htick, openStep_asks (s := pointed z s) havailable, hgrants, actOnAnswer_zero]
      · exact congrArg (fun q : Sequencer => { q with step := .pilot z }) hasked.sequencer

end Sys2Proof.Machine
end

section
/-! SUPPORT. What the uses of Zone Records and the choices that follow leave of the masks, the trims and the faults (R6, R7, R82); scrub
lines (R143, R144). -/

namespace Sys2Proof.Machine

variable {s t u : State} {z : Nat} {r : EntryRef}

/-! ### Masks, trims and faults beside uses -/

/-- The mask and trim of zone `z` are as they were, or its record has been marked and they are 0 (R7). -/
def ZoneKept (z : Nat) (s t : State) : Prop :=
  (t.marked (zoneRef z) = s.marked (zoneRef z) ∧ t.arbiter.masks.get z = s.arbiter.masks.get z ∧
    t.crosspoint.trims.get z = s.crosspoint.trims.get z) ∨
  (s.marked (zoneRef z) = false ∧ t.marked (zoneRef z) = true ∧ t.arbiter.masks.get z = 0 ∧ t.crosspoint.trims.get z = 0)

theorem ZoneKept.trans (h : ZoneKept z s t) (g : ZoneKept z t u) : ZoneKept z s u := by
  rcases h with ⟨hm, hmask, htrim⟩ | ⟨hs, hm, hmask, htrim⟩ <;> rcases g with ⟨gm, gmask, gtrim⟩ | ⟨gs, gm, gmask, gtrim⟩
  · exact .inl ⟨gm.trans hm, gmask.trans hmask, gtrim.trans htrim⟩
  · exact .inr ⟨hm.symm.trans gs, gm, gmask, gtrim⟩
  · exact .inr ⟨hs, gm.trans hm, gmask.trans hmask, gtrim.trans htrim⟩
  · exact Bool.noConfusion (hm.symm.trans gs)

/-- Uses of entries, and the choices and tests that follow them: no ZONE_DISABLED is listed that was not (R7, R82). -/
structure UsesOf (s t : State) : Prop where
  zone : ∀ z < 128, ZoneKept z s t
  disabled : ∀ z, t.listed (.zoneDisabled z) = true → s.listed (.zoneDisabled z) = true

namespace UsesOf

theorem of_eq (hmarks : t.tables.marks = s.tables.marks) (hmasks : t.arbiter.masks = s.arbiter.masks)
    (htrims : t.crosspoint.trims = s.crosspoint.trims) (hunit : t.faultUnit = s.faultUnit) : UsesOf s t where
  zone z _ := .inl ⟨by rw [State.marked, hmarks, State.marked], by rw [hmasks], by rw [htrims]⟩
  disabled z h := by
    unfold State.listed at *
    rwa [hunit] at h

theorem refl (s : State) : UsesOf s s := of_eq rfl rfl rfl rfl

theorem trans (h : UsesOf s t) (g : UsesOf t u) : UsesOf s u :=
  ⟨fun z hz => (h.zone z hz).trans (g.zone z hz), fun z hu => h.disabled z (g.disabled z hu)⟩

theorem foldl {α : Type} {f : State → α → State} (h : ∀ t a, UsesOf t (f t a)) (l : List α) (s : State) :
    UsesOf s (l.foldl f s) := by
  induction l generalizing s with
  | nil => exact refl s
  | cons a l ih => exact (h s a).trans (ih (f s a))

end UsesOf

namespace FaultUnit

variable {v : FaultUnit} {f g : FaultId} {seconds : Nat}

theorem add_listed (h : (v.add f seconds).listed g = true) (hne : g ≠ f) : v.listed g = true := by
  unfold add at h
  split at h
  · exact h
  · split at h
    · rw [take_listed] at h
      obtain ⟨e, he, hfault⟩ := listed_iff.mp h
      rcases List.mem_append.mp he with he | he
      · exact listed_iff.mpr ⟨e, he, hfault⟩
      · rw [List.mem_singleton.mp he] at hfault
        exact absurd hfault.symm hne
    · exact h

theorem listed_add_of_listed (h : v.listed g = true) : (v.add f seconds).listed g = true := by
  unfold add
  split
  · exact h
  · split
    · obtain ⟨e, he, hfault⟩ := listed_iff.mp h
      rw [take_listed]
      exact listed_iff.mpr ⟨e, List.mem_append_left _ he, hfault⟩
    · exact h

theorem listed_add (hroom : v.list.length < 64) : (v.add f seconds).listed f = true := by
  by_cases h : ∃ e ∈ v.list, e.fault = f
  · rw [add_of_listed h]
    exact listed_iff.mpr h
  · rw [add_of_room h hroom, take_listed]
    exact listed_iff.mpr ⟨{ fault := f, stamp := seconds }, List.mem_append_right _ List.mem_cons_self, rfl⟩

theorem remove_not_listed : (v.remove f seconds).listed f = false :=
  Bool.eq_false_iff.mpr fun h => (remove_listed_iff.mp h).2 rfl

end FaultUnit

theorem UsesOf.useOther (h : r.table ≠ .zoneRecord) (s : State) : UsesOf s (useEntry r s).1 where
  zone z _ := by
    refine .inl ⟨useEntry_marked r (zoneRef z) s fun hr => h (hr ▸ rfl), ?_, ?_⟩
    · rw [useEntry_arbiter]
    · unfold useEntry
      split
      · rfl
      · split <;> rfl
  disabled z hz := by
    unfold useEntry at hz
    split at hz
    · exact FaultUnit.add_listed hz nofun
    · split at hz
      · exact hz
      · exact FaultUnit.add_listed hz nofun

theorem zoneDisabledCheck_eq (old z : Nat) (s : State) : zoneDisabledCheck old z s = s.onFaultUnit fun v =>
    if old < 3 ∧ 3 ≤ s.arbiter.masks.get z then v.add (.zoneDisabled z) s.timer.seconds
    else if 3 ≤ old ∧ s.arbiter.masks.get z < 3 then v.remove (.zoneDisabled z) s.timer.seconds
    else v := by
  unfold zoneDisabledCheck
  split
  · rfl
  · split <;> rfl

/-- What the marking of zone `z`'s record does (R7). -/
theorem zoneMarked_eq (hz : z < 128) (s : State) : zoneMarked z s =
    { s with
      arbiter := { s.arbiter with masks := s.arbiter.masks.set z 0 }
      crosspoint := { s.crosspoint with trims := s.crosspoint.trims.set z 0 }
      faultUnit :=
        if 3 ≤ s.arbiter.masks.get z then s.faultUnit.remove (.zoneDisabled z) s.timer.seconds else s.faultUnit } := by
  unfold zoneMarked
  rw [zoneDisabledCheck_eq]
  have hmask : (setTrimOf z 0 (setMaskOf z 0 s)).arbiter.masks.get z = 0 := Tab.get_set_self _ _ hz
  have hadd : ¬(s.arbiter.masks.get z < 3 ∧ 3 ≤ 0) := by omega
  have hremove : (3 ≤ s.arbiter.masks.get z ∧ 0 < 3) ↔ 3 ≤ s.arbiter.masks.get z := by omega
  simp only [hmask, if_neg hadd, hremove]
  rfl

/-- What a use of an unmarked record that fails its check does, but for the choice that follows (R6, R7). -/
theorem touchZone_fails (hz : z < 128) (h : NewlyMarked s z) :
    (touchZone z s).1 = { s.setMark (zoneRef z) with
      arbiter := { s.arbiter with masks := s.arbiter.masks.set z 0 }
      crosspoint := { s.crosspoint with trims := s.crosspoint.trims.set z 0 }
      faultUnit :=
        let asked := s.faultUnit.add (.tableCorrupt (zoneRef z)) s.timer.seconds
        if 3 ≤ s.arbiter.masks.get z then asked.remove (.zoneDisabled z) s.timer.seconds else asked } := by
  rw [touchZone_of_newlyMarked h, zoneMarked_eq hz]
  rfl

theorem marked_setMark_self (s : State) (r : EntryRef) : (s.setMark r).marked r = true := by simp [marked_setMark]

theorem marked_setMark_ne (s : State) {r x : EntryRef} (h : x ≠ r) : (s.setMark r).marked x = s.marked x := by
  simp [marked_setMark, h]

theorem UsesOf.touchZone (hz : z < 128) (s : State) : UsesOf s (touchZone z s).1 := by
  by_cases hs : Sound s (zoneRef z)
  · rw [touchZone_sound hs]
    exact .refl s
  rcases hm : s.marked (zoneRef z)
  · have hnew : NewlyMarked s z := ⟨hs, hm⟩
    rw [touchZone_fails hz hnew]
    refine ⟨fun y hy => ?_, fun y hy => ?_⟩
    · by_cases hyz : y = z
      · subst hyz
        exact .inr ⟨hm, marked_setMark_self s _, Tab.get_set_self _ _ hy, Tab.get_set_self _ _ hy⟩
      · exact .inl ⟨marked_setMark_ne s fun h => hyz (zoneRef_injective h), Tab.get_set_ne _ _ (Ne.symm hyz),
          Tab.get_set_ne _ _ (Ne.symm hyz)⟩
    · have hadded : (s.faultUnit.add (.tableCorrupt (zoneRef z)) s.timer.seconds).listed (.zoneDisabled y) = true := by
        unfold State.listed at hy
        dsimp only at hy
        split at hy
        · exact (FaultUnit.remove_listed_iff.mp hy).1
        · exact hy
      exact FaultUnit.add_listed hadded nofun
  · rw [touchZone_of_marked hm]
    exact ⟨fun _ _ => .inl ⟨rfl, rfl, rfl⟩, fun y hy => FaultUnit.add_listed hy nofun⟩

theorem UsesOf.touchZones {zs : List Nat} (hzs : ∀ z ∈ zs, z < 128) (s : State) : UsesOf s (touchZones zs s).1 := by
  induction zs generalizing s with
  | nil => exact .refl s
  | cons z zs ih =>
    exact (UsesOf.touchZone (hzs z List.mem_cons_self) s).trans (ih (fun y hy => hzs y (List.mem_cons_of_mem _ hy)) _)

theorem UsesOf.giveHolder (z : Nat) (h : Holder) (level : Nat) (s : State) : UsesOf s (giveHolder z h level s) := by
  have hrest := (giveHolder_given z h level s).rest
  refine .of_eq ?_ ?_ ?_ ?_
  all_goals rw [hrest]

theorem UsesOf.decideHolder (z : Nat) (s : State) : UsesOf s (decideHolder z s) :=
  decideHolder_cases (fun h level _ => .giveHolder z h level s) fun h level _ => by
    have hgiven := UsesOf.giveHolder z h level (unreserved s)
    exact ⟨hgiven.zone, hgiven.disabled⟩

theorem UsesOf.chooseHolder (hz : z < 128) (s : State) : UsesOf s (chooseHolder z s) := by
  rw [chooseHolder_eq]
  split
  · exact (UsesOf.touchZone hz s).trans (.decideHolder z _)
  · exact .decideHolder z s

theorem UsesOf.chooseHolders {zs : List Nat} (hzs : ∀ z ∈ zs, z < 128) (s : State) : UsesOf s (chooseHolders zs s) := by
  induction zs generalizing s with
  | nil => exact .refl s
  | cons z zs ih =>
    exact (UsesOf.chooseHolder (hzs z List.mem_cons_self) s).trans (ih (fun y hy => hzs y (List.mem_cons_of_mem _ hy)) _)

theorem UsesOf.headerUsed (s : State) : UsesOf s (headerUsed s) := .useOther (r := headerRef) nofun s

theorem UsesOf.enterConfirming (k : Nat) (s : State) : UsesOf s (enterConfirming k s) := by
  unfold Machine.enterConfirming
  split
  · exact .refl s
  · rw [readTiming_value]
    exact (UsesOf.headerUsed s).trans (.of_eq rfl rfl rfl rfl)

theorem UsesOf.confirmWinners (ks : List Nat) (s : State) : UsesOf s (confirmWinners ks s) := by
  refine .foldl (fun t k => ?_) ks s
  split
  · exact .enterConfirming k t
  · exact .refl t

theorem UsesOf.wouldWinTest (ks : List Nat) (s : State) : UsesOf s (wouldWinTest ks s) := by
  have hchosen {zs : List Nat} (hzs : ∀ z ∈ zs, z < 128) (u : State) :
      UsesOf u (Machine.chooseHolders (Machine.touchZones zs u).2 (Machine.touchZones zs u).1) :=
    (UsesOf.touchZones hzs u).trans (.chooseHolders (fun z hz => hzs z (touchZones_subset zs u hz)) _)
  have h := UsesOf.touchZones (zs := testReads s ks) indices_lt s
  have g := hchosen (zs := testReads s ks) indices_lt s
  unfold Machine.wouldWinTest
  split
  · next t ht =>
    rw [ht] at h
    exact h.trans (.confirmWinners ks t)
  · next t fresh _ ht =>
    rw [ht] at g
    exact g.trans ((UsesOf.confirmWinners ks _).trans ((hchosen indices_lt _).trans (.confirmWinners _ _)))

theorem UsesOf.testPending (s : State) : UsesOf s (testPending s) := .wouldWinTest _ s

theorem UsesOf.choiceEvent {zs : List Nat} (hzs : ∀ z ∈ zs, z < 128) (s : State) : UsesOf s (choiceEvent zs s) := by
  unfold Machine.choiceEvent
  split
  · exact .refl s
  · exact (UsesOf.chooseHolders hzs s).trans (.testPending _)

/-! ### States in which a use changes nothing -/

/-- Every entry is sound, or it is marked with its TABLE_CORRUPT listed: its use changes nothing. -/
def UsesSettled (s : State) : Prop :=
  ∀ r, Sound s r ∨ (s.marked r = true ∧ s.listed (.tableCorrupt r) = true)

/-- The tables and the Fault Unit are as they were. -/
def Untouched (s t : State) : Prop := t.tables = s.tables ∧ t.faultUnit = s.faultUnit

theorem Untouched.refl (s : State) : Untouched s s := ⟨rfl, rfl⟩

theorem Untouched.trans (h : Untouched s t) (g : Untouched t u) : Untouched s u := ⟨g.1.trans h.1, g.2.trans h.2⟩

theorem Untouched.settled (h : Untouched s t) (hs : UsesSettled s) : UsesSettled t := by
  obtain ⟨htables, hunit⟩ := h
  unfold UsesSettled Sound State.marked State.passes State.listed at *
  rwa [htables, hunit]

theorem Untouched.foldl {α : Type} {f : State → α → State} (h : ∀ t a, UsesSettled t → Untouched t (f t a)) (l : List α)
    {s : State} (hs : UsesSettled s) : Untouched s (l.foldl f s) := by
  induction l generalizing s with
  | nil => exact .refl s
  | cons a l ih => exact (h s a hs).trans (ih ((h s a hs).settled hs))

theorem addFault_listed {f : FaultId} (h : s.listed f = true) : addFault f s = s :=
  congrArg (fun v => { s with faultUnit := v }) (FaultUnit.add_of_listed (FaultUnit.listed_iff.mp h))

theorem useEntry_settled (hs : UsesSettled s) (r : EntryRef) : (useEntry r s).1 = s := by
  rcases hs r with h | ⟨hm, hlisted⟩
  · rw [useEntry_sound h]
  · rw [useEntry_of_marked hm, addFault_listed hlisted]

theorem touchZone_settled (hs : UsesSettled s) (z : Nat) : (touchZone z s).1 = s ∧ ¬NewlyMarked s z := by
  rcases hs (zoneRef z) with h | ⟨hm, hlisted⟩
  · rw [touchZone_sound h]
    exact ⟨rfl, fun hnew => hnew.1 h⟩
  · rw [touchZone_of_marked hm, addFault_listed hlisted]
    exact ⟨rfl, fun hnew => Bool.noConfusion (hm.symm.trans hnew.2)⟩

theorem touchZones_settled (hs : UsesSettled s) (zs : List Nat) : touchZones zs s = (s, []) := by
  induction zs with
  | nil => rfl
  | cons z zs ih =>
    obtain ⟨hstate, hfresh⟩ := touchZones_cons z zs s
    obtain ⟨hsame, hold⟩ := touchZone_settled hs z
    rw [hsame, ih] at hstate hfresh
    refine Prod.ext hstate (List.eq_nil_iff_forall_not_mem.mpr fun y hy => ?_)
    rcases (hfresh y).mp hy with ⟨-, hnew⟩ | hnil
    · exact hold hnew
    · exact List.not_mem_nil hnil

theorem Untouched.giveHolder (z : Nat) (h : Holder) (level : Nat) (s : State) : Untouched s (giveHolder z h level s) := by
  rw [(giveHolder_given z h level s).rest]
  exact ⟨rfl, rfl⟩

theorem Untouched.decideHolder (z : Nat) (s : State) : Untouched s (decideHolder z s) :=
  decideHolder_cases (fun h level _ => .giveHolder z h level s) fun h level _ => .giveHolder z h level (unreserved s)

theorem Untouched.chooseHolder (hs : UsesSettled s) (z : Nat) : Untouched s (chooseHolder z s) := by
  rw [chooseHolder_eq, (touchZone_settled hs z).1, ite_self]
  exact .decideHolder z s

theorem Untouched.chooseHolders (hs : UsesSettled s) (zs : List Nat) : Untouched s (chooseHolders zs s) :=
  .foldl (fun _ z ht => .chooseHolder ht z) zs hs

theorem Untouched.enterConfirming (hs : UsesSettled s) (k : Nat) : Untouched s (enterConfirming k s) := by
  unfold Machine.enterConfirming
  split
  · exact .refl s
  · have hused : Machine.headerUsed s = s := useEntry_settled hs headerRef
    rw [readTiming_value, hused]
    exact ⟨rfl, rfl⟩

theorem Untouched.confirmWinners (hs : UsesSettled s) (ks : List Nat) : Untouched s (confirmWinners ks s) := by
  refine .foldl (fun t k ht => ?_) ks hs
  split
  · exact .enterConfirming ht k
  · exact .refl t

theorem Untouched.testPending (hs : UsesSettled s) : Untouched s (testPending s) := by
  unfold Machine.testPending Machine.wouldWinTest
  rw [touchZones_settled hs]
  exact .confirmWinners hs _

theorem Untouched.choiceEvent (hs : UsesSettled s) (zs : List Nat) : Untouched s (choiceEvent zs s) := by
  unfold Machine.choiceEvent
  split
  · exact .refl s
  · have hchosen := Untouched.chooseHolders hs zs
    exact hchosen.trans (.testPending (hchosen.settled hs))

/-! ### The use of a Zone Record (R6, R7) -/

theorem useAny_refused_marked (h : ¬Sound s r) : (useAny r s).1.marked r = true := by
  by_cases hr : r.table = .zoneRecord
  · have href : zoneRef r.index = r := by cases r; simp_all [zoneRef]
    rw [useAny, if_pos hr]
    rcases hm : s.marked r
    · have hnew : NewlyMarked s r.index := by rw [NewlyMarked, href]; exact ⟨h, hm⟩
      have hmarked : (touchZone r.index s).1.marked r = true := by
        rw [touchZone_of_newlyMarked hnew, href]
        exact (zoneMarked_worked _ _).toBeside.marks r (marked_setMark_self s r)
      rw [useZone_of_newlyMarked hnew]
      exact (choiceEvent_worked _ _).toBeside.marks r hmarked
    · exact (useZone_worked _ _).toBeside.marks r hm
  · rw [useAny, if_neg hr]
    exact useEntry_refused (useEntry_unsound h)

theorem sound_setMark {x : EntryRef} (hx : x ≠ r) (h : Sound s x) : Sound (s.setMark r) x :=
  ⟨(marked_setMark_ne s hx).trans h.1, h.2⟩

/-- The record of zone `z` alone was not sound: after the use every other use changes nothing. -/
theorem touchZone_settles (hz : z < 128) (hnew : NewlyMarked s z) (hbeside : ∀ r, r ≠ zoneRef z → Sound s r)
    (hroom : s.faultUnit.list.length < 64) : UsesSettled (touchZone z s).1 := by
  rw [touchZone_fails hz hnew]
  intro r
  by_cases hr : r = zoneRef z
  · subst hr
    refine .inr ⟨marked_setMark_self s _, ?_⟩
    have hlisted := FaultUnit.listed_add (f := .tableCorrupt (zoneRef z)) (seconds := s.timer.seconds) hroom
    unfold State.listed
    dsimp only
    split
    · exact FaultUnit.remove_listed_iff.mpr ⟨hlisted, nofun⟩
    · exact hlisted
  · exact .inl (sound_setMark hr (hbeside r hr))

/-- The masks and trims of zones whose records are sound are not touched. -/
theorem UsesOf.sound {y : Nat} (h : UsesOf s t) (hb : Beside s t) (hy : y < 128) (hs : Sound s (zoneRef y)) :
    t.arbiter.masks.get y = s.arbiter.masks.get y ∧ t.crosspoint.trims.get y = s.crosspoint.trims.get y := by
  rcases h.zone y hy with ⟨-, hmask, htrim⟩ | ⟨hold, hnew, -⟩
  · exact ⟨hmask, htrim⟩
  · rcases hb.marksOnly _ hnew with hm | hp
    · exact Bool.noConfusion (hold.symm.trans hm)
    · exact Bool.noConfusion (hp.symm.trans hs.2)

theorem UsesOf.useZone (hz : z < 128) (s : State) : UsesOf s (useZone z s).1 := by
  by_cases hs : Sound s (zoneRef z)
  · rw [useZone_sound hs]
    exact .refl s
  rcases hm : s.marked (zoneRef z)
  · rw [useZone_of_newlyMarked ⟨hs, hm⟩]
    exact (UsesOf.touchZone hz s).trans (.choiceEvent (fun y hy => List.mem_singleton.mp hy ▸ hz) _)
  · rw [useZone_of_marked hm]
    exact ⟨fun _ _ => .inl ⟨rfl, rfl, rfl⟩, fun y hy => FaultUnit.add_listed hy nofun⟩

section

variable (hz : z < 128) (hnew : NewlyMarked s z)

include hz hnew

theorem touchZone_newlyMarked_zone : (touchZone z s).1.marked (zoneRef z) = true ∧
    (touchZone z s).1.arbiter.masks.get z = 0 ∧ (touchZone z s).1.crosspoint.trims.get z = 0 := by
  rw [touchZone_fails hz hnew]
  exact ⟨marked_setMark_self s _, Tab.get_set_self _ _ hz, Tab.get_set_self _ _ hz⟩

theorem touchZone_newlyMarked_disabled (hmask : 3 ≤ s.arbiter.masks.get z) :
    (touchZone z s).1.listed (.zoneDisabled z) = false := by
  rw [touchZone_fails hz hnew, State.listed, if_pos hmask]
  exact FaultUnit.remove_not_listed

theorem useZone_newlyMarked_uses : UsesOf (touchZone z s).1 (useZone z s).1 := by
  rw [useZone_of_newlyMarked hnew]
  exact .choiceEvent (fun y hy => List.mem_singleton.mp hy ▸ hz) _

theorem useZone_newlyMarked_zone : (useZone z s).1.marked (zoneRef z) = true ∧
    (useZone z s).1.arbiter.masks.get z = 0 ∧ (useZone z s).1.crosspoint.trims.get z = 0 := by
  obtain ⟨hmarked, hmask, htrim⟩ := touchZone_newlyMarked_zone hz hnew
  rcases (useZone_newlyMarked_uses hz hnew).zone z hz with ⟨gmarked, gmask, gtrim⟩ | ⟨-, gmarked, gmask, gtrim⟩
  · exact ⟨gmarked.trans hmarked, gmask.trans hmask, gtrim.trans htrim⟩
  · exact ⟨gmarked, gmask, gtrim⟩

theorem useZone_newlyMarked_disabled (hmask : 3 ≤ s.arbiter.masks.get z) :
    (useZone z s).1.listed (.zoneDisabled z) = false :=
  Bool.eq_false_iff.mpr fun hlisted => Bool.noConfusion
    ((touchZone_newlyMarked_disabled hz hnew hmask).symm.trans ((useZone_newlyMarked_uses hz hnew).disabled z hlisted))

theorem useZone_newlyMarked_unit (hothers : ∀ r, r ≠ zoneRef z → Sound s r) (hroom : s.faultUnit.list.length < 64) :
    (useZone z s).1.faultUnit =
      let asked := s.faultUnit.add (.tableCorrupt (zoneRef z)) s.timer.seconds
      if 3 ≤ s.arbiter.masks.get z then asked.remove (.zoneDisabled z) s.timer.seconds else asked := by
  obtain ⟨-, hunit⟩ := Untouched.choiceEvent (touchZone_settles hz hnew hothers hroom) [z]
  rw [useZone_of_newlyMarked hnew]
  exact hunit.trans (by rw [touchZone_fails hz hnew])

end

/-! ### Scrub lines (R143, R144) -/

theorem scrubLine_eq (k : Nat) (s : State) : scrubLine k s = (scrubEntries k).foldl (fun t r => (useAny r t).1) s := rfl

theorem foldl_useAny_sound {l : List EntryRef} (h : ∀ r ∈ l, Sound s r) : l.foldl (fun t r => (useAny r t).1) s = s := by
  induction l with
  | nil => rfl
  | cons r l ih =>
    rw [List.foldl_cons, useAny_sound (h r List.mem_cons_self)]
    exact ih fun x hx => h x (List.mem_cons_of_mem _ hx)

/-- A walk over entries of which one alone, met once, is not sound is the use of that one. -/
theorem foldl_useAny_one {l : List EntryRef} (hnodup : l.Nodup) (hr : r ∈ l) (h : ∀ x ∈ l, x ≠ r → Sound s x) :
    l.foldl (fun t r => (useAny r t).1) s = (useAny r s).1 := by
  induction l with
  | nil => cases hr
  | cons x l ih =>
    obtain ⟨hx, hnodup⟩ := List.nodup_cons.mp hnodup
    rw [List.foldl_cons]
    by_cases hxr : x = r
    · subst hxr
      refine foldl_useAny_sound fun y hy => ?_
      have hne : y ≠ x := fun hyx => hx (hyx ▸ hy)
      exact ((useAny_worked x s).toBeside.sound y).mpr (h y (List.mem_cons_of_mem _ hy) hne)
    · rw [useAny_sound (h x List.mem_cons_self hxr)]
      exact ih hnodup ((List.mem_cons.mp hr).resolve_left (Ne.symm hxr)) fun y hy => h y (List.mem_cons_of_mem _ hy)

theorem foldl_useAny_marks {l : List EntryRef} (hr : r ∈ l) (h : ¬Sound s r) :
    (l.foldl (fun t r => (useAny r t).1) s).marked r = true := by
  have hwalk (l : List EntryRef) (t : State) : Worked t (l.foldl (fun t r => (useAny r t).1) t) :=
    .foldl (fun t r => useAny_worked r t) l t
  induction l generalizing s with
  | nil => cases hr
  | cons x l ih =>
    rw [List.foldl_cons]
    by_cases hxr : x = r
    · subst hxr
      exact (hwalk l _).toBeside.marks x (useAny_refused_marked h)
    · exact ih ((List.mem_cons.mp hr).resolve_left (Ne.symm hxr))
        fun hs => h (((useAny_worked x s).toBeside.sound r).mp hs)

/-- No entry is checked twice in a scrub line. -/
theorem scrubEntries_nodup (k : Nat) : (scrubEntries k).Nodup := by
  unfold scrubEntries smallEntry
  repeat' split
  all_goals simp [zoneRef, storeyRef, detectionRef, stepRef, planRef, translationRef, defaultRef, headerRef, authorityRef]

theorem exec_scrubLine {line : Nat} (h : line < 128) : exec (.scrubLine line) s = settled (scrubLine line s) :=
  congrArg settled (if_pos h)

/-- Settles O55. -/
theorem scrubLineMarksItsEntries : Obligations.ScrubLineMarksItsEntries := by
  refine ⟨fun line s hline => ⟨fun hs => ?sound, fun r hr hunsound hothers => ?one, ?all⟩,
    fun z s hz => ⟨useZone_sound, useZone_of_marked, fun hm hp => ?fails⟩⟩
  case sound => exact (exec_scrubLine hline).trans (congrArg settled (scrubLine_sound hs))
  case one =>
    have hused : exec (.scrubLine line) s = settled (useAny r s).1 :=
      (exec_scrubLine hline).trans (congrArg settled (foldl_useAny_one (scrubEntries_nodup line) hr hothers))
    refine ⟨fun ht => ?_, fun ht => ⟨?_, ?_⟩⟩
    · rw [useAny, if_neg ht] at hused
      exact hused
    · have hindex := scrubEntries_zoneRecord hr ht
      cases r
      cases ht
      cases hindex
      rfl
    · rw [useAny, if_pos ht, scrubEntries_zoneRecord hr ht] at hused
      exact hused
  case all =>
    exact ⟨_, exec_scrubLine hline, (scrubLine_worked line s).toBeside, scrubLine_sequencer line s,
      fun r hr hunsound => foldl_useAny_marks hr hunsound⟩
  case fails =>
    have hunsound : ¬Sound s (zoneRef z) := fun hs => Bool.noConfusion (hp.symm.trans hs.2)
    have hnew : NewlyMarked s z := ⟨hunsound, hm⟩
    have hbeside : Beside s (useZone z s).1 := (useZone_worked z s).toBeside
    obtain ⟨hmarked, hmask, htrim⟩ := useZone_newlyMarked_zone hz hnew
    refine ⟨by rw [useZone_of_newlyMarked hnew], hbeside, hmarked, hmask, htrim, useZone_newlyMarked_disabled hz hnew,
      fun hl => ?holder, fun hothers => ⟨fun y hy hyz => ?other, useZone_newlyMarked_unit hz hnew hothers⟩⟩
    case holder =>
      have hkept : Kept .all .empty s .empty (useZone z s).1 := .useZone fun _ => hz
      exact holders_empty.mp (hkept.holder (holders_empty.mpr hl)) z hz
    case other => exact (UsesOf.useZone hz s).sound hbeside hy (hothers _ fun h => hyz (zoneRef_injective h))

end Sys2Proof.Machine
end

section
/-! SUPPORT. The install of a validated image (R3): base values taken with every entry sound, and the whole command. -/

namespace Sys2Proof.Machine

variable {s t u : State} {e : Edit} {z : Nat}

/-! ### What a holder choice with its ZONE_DISABLED check keeps -/

/-- The tables, the masks, the trims and the plan claims are as they were, and no TABLE_CORRUPT is listed that was not. -/
structure Rebased (s t : State) : Prop where
  tables : t.tables = s.tables
  masks : t.arbiter.masks = s.arbiter.masks
  planClaims : t.arbiter.planClaims = s.arbiter.planClaims
  trims : t.crosspoint.trims = s.crosspoint.trims
  corrupt : ∀ r, t.listed (.tableCorrupt r) = true → s.listed (.tableCorrupt r) = true

namespace Rebased

theorem refl (s : State) : Rebased s s := ⟨rfl, rfl, rfl, rfl, fun _ h => h⟩

theorem trans (h : Rebased s t) (g : Rebased t u) : Rebased s u :=
  ⟨g.tables.trans h.tables, g.masks.trans h.masks, g.planClaims.trans h.planClaims, g.trims.trans h.trims,
    fun r hu => h.corrupt r (g.corrupt r hu)⟩

theorem of_quiet (h : Quiet s t) : Rebased s t where
  tables := h.tables
  masks := h.masks
  planClaims := h.planClaims
  trims := h.trims
  corrupt r ht := by
    unfold State.listed at *
    rwa [h.faultUnit] at ht

theorem zoneDisabledCheck (old z : Nat) (s : State) : Rebased s (zoneDisabledCheck old z s) := by
  rw [zoneDisabledCheck_eq]
  refine ⟨rfl, rfl, rfl, rfl, fun r h => ?_⟩
  unfold State.listed at *
  dsimp only [State.onFaultUnit_faultUnit] at h
  split at h
  · exact FaultUnit.add_listed h nofun
  · split at h
    · exact (FaultUnit.remove_listed_iff.mp h).1
    · exact h

theorem sound (h : Rebased s t) (hs : SoundTables s) : SoundTables t := (soundTables_congr h.tables).mpr hs

theorem chooseAndCheck (old : Tab Nat 128) (zs : List Nat) (hs : SoundTables s) : Rebased s (chooseAndCheck old zs s) := by
  unfold Machine.chooseAndCheck
  induction zs generalizing s with
  | nil => exact refl s
  | cons z zs ih =>
    have hchosen : Rebased s (Machine.zoneDisabledCheck (old.get z) z (chooseHolder z s)) :=
      (of_quiet (chooseHolder_quiet z hs)).trans (.zoneDisabledCheck _ z _)
    exact hchosen.trans (ih (hchosen.sound hs))

end Rebased

/-- With sound tables the base values are taken as stored. -/
theorem takeBaseValues_rebased (hs : SoundTables s) : Rebased (setBaseValues s) (takeBaseValues s) := by
  unfold takeBaseValues
  rw [touchZones_sound hs]
  have hchosen := Rebased.chooseAndCheck s.arbiter.masks (List.range 128) (s := setBaseValues s) hs
  exact hchosen.trans (.of_quiet (testPending_quiet (hchosen.sound hs)))

theorem baseValues_get (f : ZoneRecord → Nat) (hz : z < 128) :
    (baseValues f s).get z = if s.marked (zoneRef z) then 0 else f (s.tables.fields.zones.get z) := Tab.get_mapIdx _ _ hz

/-! ### The Fault List after the removal of every TABLE_CORRUPT (R171) -/

theorem FaultUnit.foldl_take_list (f : FaultEntry → Notice) (l : List FaultEntry) (v : FaultUnit) :
    (l.foldl (fun v e => v.take (f e)) v).list = v.list := by
  induction l generalizing v with
  | nil => rfl
  | cons e l ih => rw [List.foldl_cons, ih, (FaultUnit.take_list _ v).1]

theorem FaultUnit.removeTableCorrupt_list (seconds : Nat) (v : FaultUnit) :
    (v.removeTableCorrupt seconds).list = v.list.filter fun e => !isTableCorrupt e.fault := by
  unfold FaultUnit.removeTableCorrupt
  dsimp only
  split
  · next h =>
    rw [List.isEmpty_iff, List.filter_eq_nil_iff] at h
    exact (List.filter_eq_self.mpr fun e he => by simp [h e he]).symm
  · exact FaultUnit.foldl_take_list _ _ _

theorem FaultUnit.removeTableCorrupt_not_listed (seconds : Nat) (v : FaultUnit) (r : EntryRef) :
    (v.removeTableCorrupt seconds).listed (.tableCorrupt r) = false := by
  refine Bool.eq_false_iff.mpr fun h => ?_
  obtain ⟨e, he, hfault⟩ := FaultUnit.listed_iff.mp h
  rw [FaultUnit.removeTableCorrupt_list, List.mem_filter, hfault] at he
  exact Bool.noConfusion he.2

/-! ### The install -/

/-- The part with the image of the edit in its tables and no TABLE_CORRUPT listed, before base values are taken. -/
def imageTaken (e : Edit) (s : State) : State :=
  (s.onTables fun _ => .fresh e.staging).onFaultUnit (FaultUnit.removeTableCorrupt s.timer.seconds)

theorem installImage_eq (e : Edit) (s : State) : installImage e s = answerCommit .ok [] (takeBaseValues (imageTaken e s)) := rfl

theorem imageTaken_sound (e : Edit) (s : State) : SoundTables (imageTaken e s) := fun r =>
  have ⟨hpasses, hmarked⟩ := passes_of_fresh (s := imageTaken e s) rfl r
  ⟨hmarked, hpasses⟩

theorem installIfPassed_of (h : s.tables.edit = some e) (hphase : e.phase = .passed) : installIfPassed s = installImage e s := by
  unfold installIfPassed
  rw [h]
  exact if_pos hphase

theorem installIfPassed_other (h : ∀ e, s.tables.edit = some e → e.phase ≠ .passed) : installIfPassed s = s := by
  unfold installIfPassed
  split
  · next e he => exact if_neg (h e he)
  · rfl

theorem zFrameBuild_congr (h : installIfPassed t = installIfPassed s) : zFrameBuild t = zFrameBuild s := by
  unfold zFrameBuild
  rw [h]

theorem Beside.address (h : Beside s t) : t.router.address = s.router.address := by
  have haddress := congrArg Router.address h.router
  exact haddress

theorem Beside.places (h : Beside s t) : t.router.places = s.router.places := by
  have hplaces := congrArg Router.places h.router
  exact hplaces

/-- The commit's answer changes the response places alone. -/
theorem answerCommit_router {status : Status} {data : List Byte} (h : Beside s t) :
    ∃ confirms, (answerCommit status data t).router =
      { s.router with
        confirms := confirms
        places := fillPlace .commit s.router.address (.response 10 status data) s.router.places } := by
  have hrouter := h.router
  refine ⟨t.router.confirms, ?_⟩
  have hfilled : (answerCommit status data t).router = { t.router with
      places := fillPlace .commit s.router.address (.response 10 status data) s.router.places } := by
    rw [← h.address, ← h.places]
    rfl
  rw [hfilled]
  exact congrArg (fun r : Router => { r with
    confirms := t.router.confirms
    places := fillPlace .commit s.router.address (.response 10 status data) s.router.places }) hrouter

/-- The install: base values are taken with the new image in the tables, and the commit is answered. -/
theorem installImage_taken (e : Edit) (s : State) : ∃ u, installImage e s = answerCommit .ok [] u ∧
    Rebased (setBaseValues (imageTaken e s)) u ∧ Beside (imageTaken e s) u :=
  ⟨_, installImage_eq e s, takeBaseValues_rebased (imageTaken_sound e s), (takeBaseValues_worked _).toBeside⟩

theorem installImage_edit (e : Edit) (s : State) : (installImage e s).tables.edit = none := by
  obtain ⟨u, hinstall, hrebased, -⟩ := installImage_taken e s
  rw [hinstall]
  exact congrArg TableStore.edit hrebased.tables

/-- Settles O58. -/
theorem installReplacesTheImage : Obligations.InstallReplacesTheImage := by
  refine fun s => ⟨fun h => congrArg settled (installIfPassed_other h), fun e he hphase =>
    ⟨installImage e s, congrArg settled (installIfPassed_of he hphase), ?_⟩⟩
  have hinstalled := installIfPassed_of he hphase
  have hframe : exec .zFrameBuild s = exec .zFrameBuild (installImage e s) :=
    have hagain : installIfPassed (installImage e s) = installImage e s :=
      installIfPassed_other fun d hd => by rw [installImage_edit] at hd; cases hd
    congrArg settled (zFrameBuild_congr (hagain.trans hinstalled.symm)).symm
  obtain ⟨u, hinstall, hrebased, hbeside⟩ := installImage_taken e s
  rw [hinstall] at hframe ⊢
  refine ⟨hrebased.tables, fun r => Bool.eq_false_iff.mpr fun h => ?_, fun z hz => ⟨?_, ?_⟩, hbeside.engine,
    hrebased.planClaims, hbeside.timer, hbeside.sPort, hbeside.zPort, hframe, fun before q after hplaces hfirst => ?answer⟩
  · exact Bool.noConfusion
      ((FaultUnit.removeTableCorrupt_not_listed s.timer.seconds s.faultUnit r).symm.trans (hrebased.corrupt r h))
  · exact (congrArg (fun m : Tab Nat 128 => m.get z) hrebased.masks).trans (baseValues_get _ hz)
  · exact (congrArg (fun m : Tab Nat 128 => m.get z) hrebased.trims).trans (baseValues_get _ hz)
  case answer =>
    obtain ⟨confirms, hrouter⟩ := answerCommit_router (status := .ok) (data := []) hbeside
    rw [hrouter]
    dsimp only [imageTaken, State.onFaultUnit_router, State.onTables_router]
    rw [hplaces, fillPlace_append hfirst]
    simp [fillPlace]

end Sys2Proof.Machine
end

section
/-! SUPPORT. The checks of a CLAIM in their order, and its refusals (R85). -/

namespace Sys2Proof.Machine

variable {q : Sender} {s t : State} {station level channel k : Nat} {field : SelectionField} {selection : Selection}

/-! ### The claim checks (R85) -/

/-- The levels a live claim may carry (R85, check 3). -/
def Live (level : Nat) : Prop := level = 1 ∨ level = 2 ∨ level = 6 ∨ level = 7

theorem isLiveLevel_iff : isLiveLevel level = true ↔ Live level := by
  simp [isLiveLevel, Live, or_assoc]

theorem selectionOf_span (first count : Nat) : selectionOf (.span first count) =
    if 1 ≤ count ∧ first + count ≤ 128 then some (.span first count) else none := by
  by_cases h : 1 ≤ count ∧ first + count ≤ 128
  · exact (if_neg (by omega)).trans (if_pos h).symm
  · exact (if_pos (by omega)).trans (if_neg h).symm

theorem channelHeld_eq_false : channelHeld s channel = false ↔ ∀ k < 16, ∀ c, s.arbiter.claims.get k = some c → c.channel ≠ channel := by
  refine ⟨fun h j hj => channelHeldBeside_eq_false h j hj (Nat.ne_of_lt hj), fun h => ?_⟩
  unfold channelHeld channelHeldBeside
  refine List.any_eq_false.mpr fun j hj => ?_
  have hfree := h j (List.mem_range.mp hj)
  rcases hc : s.arbiter.claims.get j with _ | c
  · simp
  · simpa using fun _ => hfree c hc

theorem freeSlot_eq_none (h : ∀ k < 16, s.arbiter.claims.get k ≠ none) : freeSlot s = none :=
  List.find?_eq_none.mpr fun k hk hnone => h k (List.mem_range.mp hk) (Option.isNone_iff_eq_none.mp hnone)

theorem decideClaim_badLevel (h : ¬Live level) : decideClaim station level channel field s = (s, .badLevel) :=
  if_pos (Bool.eq_false_iff.mpr (mt isLiveLevel_iff.mp h))

/-- The selection that is claimed, where neither it nor the channel is refused BAD_VALUE (R85, check 4). -/
def claimedSelection (channel : Nat) (field : SelectionField) : Option Selection :=
  if 31 < channel then none else selectionOf field

theorem decideClaim_badValue (hlive : Live level) (h : claimedSelection channel field = none) :
    decideClaim station level channel field s = (s, .badValue) := by
  unfold claimedSelection at h
  simp [decideClaim, isLiveLevel_iff.mpr hlive, h]

theorem decideClaim_busy (hlive : Live level) (hvalue : claimedSelection channel field = some selection)
    (h : ¬∀ k < 16, ∀ c, s.arbiter.claims.get k = some c → c.channel ≠ channel) :
    decideClaim station level channel field s = (s, .channelBusy) := by
  have hheld : channelHeld s channel = true := Bool.not_eq_false _ ▸ mt channelHeld_eq_false.mp h
  unfold claimedSelection at hvalue
  simp [decideClaim, isLiveLevel_iff.mpr hlive, hvalue, hheld]

section

variable (hlive : Live level) (hvalue : claimedSelection channel field = some selection)
  (hfree : ∀ k < 16, ∀ c, s.arbiter.claims.get k = some c → c.channel ≠ channel)

include hlive hvalue hfree

theorem decideClaim_full (h : freeSlot s = none) : decideClaim station level channel field s = (s, .full) := by
  unfold claimedSelection at hvalue
  simp [decideClaim, isLiveLevel_iff.mpr hlive, hvalue, channelHeld_eq_false.mpr hfree, h]

theorem decideClaim_accepted (h : freeSlot s = some k) : decideClaim station level channel field s =
    (acceptClaim k station level channel selection s, .accepted k) := by
  unfold claimedSelection at hvalue
  simp [decideClaim, isLiveLevel_iff.mpr hlive, hvalue, channelHeld_eq_false.mpr hfree, h]

end

/-! ### The answer to a claim (R152) -/

theorem claim_noPlace (h : 8 ≤ s.router.places.length) : claim q level channel field s = s :=
  if_pos (decide_eq_false (Nat.not_lt.mpr h))

theorem claim_judged (hroom : s.router.places.length < 8) {result : ClaimResult}
    (h : judgeClaim q.station level channel field (reservePlace q s) = (t, result)) :
    claim q level channel field s = giveAnswer .command (.claimResponse result) t := by
  have hplace : s.hasPlace = true := decide_eq_true hroom
  unfold claim
  rw [h, hplace]
  rfl

theorem claim_refused (hroom : s.router.places.length < 8) (hhand : HandLaw s.router) {result : ClaimResult}
    (h : judgeClaim q.station level channel field (reservePlace q s) = (reservePlace q (lookedUp q s), result)) :
    claim q level channel field s = answered q (.claimResponse result) (lookedUp q s) :=
  (claim_judged hroom h).trans
    (giveAnswer_reserved (hhand.of_places (congrArg Router.places (lookedUp_beside q s).1)))

theorem address_lookedUp (q : Sender) (s : State) : (reservePlace q (lookedUp q s)).router.address = s.router.address := by
  show (lookedUp q s).router.address = s.router.address
  rw [(lookedUp_beside q s).1]

theorem judgeClaim_notBound (h : s.router.address = 0) :
    judgeClaim q.station level channel field (reservePlace q s) = (reservePlace q (lookedUp q s), .notBound) := by
  unfold judgeClaim
  rw [authorityOf_reserved]
  exact if_pos ((address_lookedUp q s).trans h)

theorem judgeClaim_denied (h : s.router.address ≠ 0) (hdenied : Authority.operate.meets (authorityOf q.station s).2 = false) :
    judgeClaim q.station level channel field (reservePlace q s) = (reservePlace q (lookedUp q s), .denied) := by
  unfold judgeClaim
  rw [authorityOf_reserved]
  exact (if_neg (fun hzero => h ((address_lookedUp q s).symm.trans hzero))).trans (if_pos hdenied)

theorem judgeClaim_heard (h : Heard q .operate s) :
    judgeClaim q.station level channel field (reservePlace q s) =
      decideClaim q.station level channel field (reservePlace q (lookedUp q s)) := by
  unfold judgeClaim
  rw [authorityOf_reserved]
  exact (if_neg (fun hzero => h.bound ((address_lookedUp q s).symm.trans hzero))).trans
    (if_neg fun hdenied => Bool.noConfusion (h.authority.symm.trans hdenied))

theorem claims_lookedUp (q : Sender) (s : State) :
    (reservePlace q (lookedUp q s)).arbiter.claims = s.arbiter.claims :=
  congrArg Arbiter.claims (lookedUp_beside q s).2.1

/-- Settles O39. -/
theorem claimsRefusedInOrder : Obligations.ClaimsRefusedInOrder := by
  intro q level channel field s u refused live good free
  have hgood : good ↔ claimedSelection channel field ≠ none := by
    unfold claimedSelection
    cases field with
    | span first count =>
      rw [selectionOf_span]
      by_cases hchannel : 31 < channel <;> by_cases hspan : 1 ≤ count ∧ first + count ≤ 128 <;> simp [good, hchannel, hspan]
      omega
    | groups set =>
      by_cases hchannel : 31 < channel
      · simp [good, selectionOf, hchannel, Nat.not_le.mpr hchannel]
      · simp [good, selectionOf, hchannel, Nat.not_lt.mp hchannel]
    | unknown type => simp [good, selectionOf]
  have hrefused {result : ClaimResult} (h : Heard q .operate s)
      (hresult : decideClaim q.station level channel field (reservePlace q (lookedUp q s)) =
        (reservePlace q (lookedUp q s), result)) : refused result :=
    congrArg settled (claim_refused h.place h.hand ((judgeClaim_heard h).trans hresult))
  refine ⟨fun hfull => congrArg settled (claim_noPlace hfull),
    fun hroom hhand hunbound => congrArg settled (claim_refused hroom hhand (judgeClaim_notBound hunbound)),
    fun hroom hhand hbound hdenied => congrArg settled (claim_refused hroom hhand (judgeClaim_denied hbound hdenied)),
    fun h => ⟨fun hlive => hrefused h (decideClaim_badLevel hlive),
      fun hlive hbad => hrefused h (decideClaim_badValue hlive (Classical.not_not.mp (mt hgood.mpr hbad))),
      fun hlive hvalue hbusy => ?busy, fun hlive hvalue hfree hfull => ?full⟩⟩
  case busy =>
    obtain ⟨selection, hselection⟩ := Option.ne_none_iff_exists'.mp (hgood.mp hvalue)
    refine hrefused h (decideClaim_busy hlive hselection ?_)
    rwa [claims_lookedUp]
  case full =>
    obtain ⟨selection, hselection⟩ := Option.ne_none_iff_exists'.mp (hgood.mp hvalue)
    refine hrefused h (decideClaim_full hlive hselection ?_ (freeSlot_eq_none ?_)) <;> rwa [claims_lookedUp]

end Sys2Proof.Machine
end

section
/-! SUPPORT. The test of every PENDING claim that ends an event (R88): who enters CONFIRMING, and in which order. -/

namespace Sys2Proof.Machine

variable {s t u : State} {k z : Nat} {ks won : List Nat} {c : Claim}

/-! ### A claim enters CONFIRMING (R89) -/

/-- The claim in CONFIRMING with this confirm number and the confirm timeout of `s`. -/
def Claim.asked (s : State) (number : Nat) (c : Claim) : Claim :=
  { c with state := .confirming number (16 * headerValue Header.confirmTimeout s) }

theorem enterConfirming_of (h : s.arbiter.claims.get k = some c) : enterConfirming k s =
    let u := headerUsed s
    let number := (s.arbiter.confirmCounter + 1) % 256
    { u with
      arbiter := { u.arbiter with
        confirmCounter := number
        claims := u.arbiter.claims.set k (some (c.asked s number)) }
      router := { u.router with
        confirms := u.router.confirms.filter (fun d => decide (d.slot ≠ k)) ++ [c.confirmRequest k number] } } := by
  have hused : (headerUsed s).arbiter = s.arbiter := headerUsed_arbiter s
  unfold enterConfirming
  rw [h, readTiming_value]
  unfold queueConfirm State.onRouter State.onArbiter
  dsimp only
  rw [onClaim_eq_set _ (hused ▸ h), hused]
  rfl

theorem wouldWin_iff : wouldWin s k = true ↔ ∃ c, s.arbiter.claims.get k = some c ∧ c.state = .pending ∧ Wins s c := by
  unfold wouldWin Wins
  rcases s.arbiter.claims.get k with _ | c
  · simp
  · simp [and_assoc]

theorem Claim.air_of_pending (h : c.state = .pending) : c.air = none := by simp [Claim.air, Claim.onAirStamp, h]

theorem Claim.air_asked (s : State) (number : Nat) (c : Claim) : (c.asked s number).air = none := by
  simp [Claim.air, Claim.onAirStamp, Claim.asked]

/-- The level and the selection of a claim, with the candidates, decide whether it passes the would-win test. -/
theorem wins_congr {d : Claim} (h : ∀ z < 128, SameCandidates z s t) (hlevel : d.level = c.level)
    (hselection : d.selection = c.selection) : Wins t d ↔ Wins s c := by
  unfold Wins
  rw [hlevel, hselection]
  refine exists_congr fun z => and_congr_right fun hz => ?_
  rw [(h z hz).winner, (h z hz).mask, selects_congr (h z hz).group]

/-! ### The claims that are asked for, one after another -/

/-- The CONFIRM REQUESTS of the claims in these slots, with these confirm numbers. -/
def requestsFor (s : State) (number : Nat → Nat) (ks : List Nat) : List ConfirmRequest :=
  ks.filterMap fun k => (s.arbiter.claims.get k).map (Claim.confirmRequest k (number k))

/-- The PENDING claims in the slots `won` have entered CONFIRMING in this order, and nothing else has changed. -/
structure WinnersAsked (won : List Nat) (s t : State) : Prop where
  asked : Asked s t
  left : ∀ k, k ∉ won → t.arbiter.claims.get k = s.arbiter.claims.get k
  confirms : ∃ (before : List ConfirmRequest) (number : Nat → Nat),
    t.router.confirms = before ++ requestsFor s number won ∧
    ∀ k ∈ won, t.arbiter.claims.get k = (s.arbiter.claims.get k).map (Claim.asked s (number k))

namespace WinnersAsked

theorem refl (s : State) : WinnersAsked [] s s := ⟨.refl s, fun _ _ => rfl, s.router.confirms, id, (List.append_nil _).symm, nofun⟩

theorem sameCandidates (h : WinnersAsked won s t) (hwon : ∀ k ∈ won, wouldWin s k = true) (z : Nat) : SameCandidates z s t := by
  have hasked := h.asked
  have harbiter : t.arbiter =
      { s.arbiter with claims := t.arbiter.claims, confirmCounter := t.arbiter.confirmCounter } :=
    congrArg State.arbiter hasked
  refine ⟨?_, by rw [harbiter], by rw [harbiter], fun k hk => ?_⟩
  · unfold groupOf State.marked
    rw [hasked.tables]
  · by_cases hkwon : k ∈ won
    · obtain ⟨before, number, -, hclaims⟩ := h.confirms
      obtain ⟨c, hc, hpending, -⟩ := wouldWin_iff.mp (hwon k hkwon)
      rw [hclaims k hkwon, hc]
      exact (Claim.air_asked s _ c).trans (Claim.air_of_pending hpending).symm
    · rw [h.left k hkwon]

/-- One more claim enters CONFIRMING. -/
theorem enterConfirming (hs : SoundTables s) (h : WinnersAsked won s t) (hk : k ∉ won) (hc : s.arbiter.claims.get k = some c) :
    WinnersAsked (won ++ [k]) s (enterConfirming k t) := by
  have ht : SoundTables t := h.asked.sound hs
  have hct : t.arbiter.claims.get k = some c := (h.left k hk).trans hc
  have htimeout : headerValue Header.confirmTimeout t = headerValue Header.confirmTimeout s := by
    rw [headerValue_sound _ ht, headerValue_sound _ hs, h.asked.tables]
  have hasked : c.asked t ((t.arbiter.confirmCounter + 1) % 256) = c.asked s ((t.arbiter.confirmCounter + 1) % 256) := by
    rw [Claim.asked, htimeout, Claim.asked]
  have henter := enterConfirming_of hct
  rw [headerUsed_sound ht] at henter
  dsimp only at henter
  rw [hasked] at henter
  obtain ⟨before, number, hconfirms, hclaims⟩ := h.confirms
  refine ⟨h.asked.trans (.enterConfirming ht k), fun j hj => ?left,
    before.filter (fun d => decide (d.slot ≠ k)),
    fun j => if j = k then (t.arbiter.confirmCounter + 1) % 256 else number j, ?confirms, fun j hj => ?claims⟩
  case left =>
    obtain ⟨hjwon, hjk⟩ := not_or.mp (mt List.mem_append.mpr hj)
    rw [henter]
    exact (Tab.get_set_ne _ _ (Ne.symm (mt List.mem_singleton.mpr hjk))).trans (h.left j hjwon)
  case claims =>
    rw [henter]
    dsimp only
    by_cases hjk : j = k
    · subst hjk
      rw [if_pos rfl, hc]
      exact Tab.get_set_self _ _ (slot_lt hc)
    · rw [if_neg hjk]
      exact (Tab.get_set_ne _ _ (Ne.symm hjk)).trans
        (hclaims j ((List.mem_append.mp hj).resolve_right (mt List.mem_singleton.mp hjk)))
  case confirms =>
    have hothers (j : Nat) (hj : j ∈ won) : j ≠ k := fun hjk => hk (hjk ▸ hj)
    rw [henter]
    dsimp only
    rw [hconfirms, List.filter_append, List.append_assoc, requestsFor, requestsFor, List.filterMap_append]
    congr 1
    congr 1
    · rw [List.filter_eq_self.mpr]
      · exact filterMap_eq_of_mem fun j hj => by rw [if_neg (hothers j hj)]
      · intro d hd
        obtain ⟨j, hj, hmap⟩ := List.mem_filterMap.mp hd
        obtain ⟨e, -, rfl⟩ := Option.map_eq_some_iff.mp hmap
        exact decide_eq_true (hothers j hj)
    · simp [hc]

end WinnersAsked

/-- Each of the claims that passes the test enters CONFIRMING, in the order given. -/
theorem confirmWinners_asked (hs : SoundTables s) (hnodup : ks.Nodup) :
    WinnersAsked (ks.filter (wouldWin s)) s (confirmWinners ks s) := by
  induction ks using append_singleton_induction with
  | nil => exact .refl s
  | append_singleton ks k ih =>
    obtain ⟨hks, -, hdisjoint⟩ := List.nodup_append.mp hnodup
    have hk : k ∉ ks := fun hmem => hdisjoint k hmem k List.mem_cons_self rfl
    have hasked := ih hks
    have hkwon : k ∉ ks.filter (wouldWin s) := fun hmem => hk (List.mem_filter.mp hmem).1
    have hstep : confirmWinners (ks ++ [k]) s =
        if wouldWin s k then enterConfirming k (confirmWinners ks s) else confirmWinners ks s := by
      unfold confirmWinners
      rw [List.foldl_append]
      rfl
    rw [hstep, List.filter_append, List.filter_cons, List.filter_nil]
    rcases hwin : wouldWin s k
    · exact (List.append_nil _).symm ▸ hasked
    · obtain ⟨c, hc, -⟩ := wouldWin_iff.mp hwin
      exact hasked.enterConfirming hs hkwon hc

/-! ### The PENDING claims in the order of their stamps (R88) -/

/-- The arrival stamp of the claim in a slot. -/
def Arbiter.arrivalAt (a : Arbiter) (k : Nat) : Nat :=
  match a.claims.get k with
  | some c => c.arrival
  | none => 0

theorem arrivalAt_of {a : Arbiter} (h : a.claims.get k = some c) : a.arrivalAt k = c.arrival := by
  unfold Arbiter.arrivalAt
  rw [h]

theorem insertByArrival_cons (a : Arbiter) (k j : Nat) (l : List Nat) : insertByArrival a k (j :: l) =
    if a.arrivalAt k ≤ a.arrivalAt j then k :: j :: l else j :: insertByArrival a k l := rfl

theorem insertByArrival_perm (a : Arbiter) (k : Nat) (l : List Nat) : (insertByArrival a k l).Perm (k :: l) := by
  induction l with
  | nil => exact .refl _
  | cons j l ih =>
    rw [insertByArrival_cons]
    split
    · exact .refl _
    · exact (ih.cons j).trans (.swap k j l)

theorem insertByArrival_sorted (a : Arbiter) (k : Nat) {l : List Nat}
    (h : l.Pairwise fun i j => a.arrivalAt i ≤ a.arrivalAt j) :
    (insertByArrival a k l).Pairwise fun i j => a.arrivalAt i ≤ a.arrivalAt j := by
  induction l with
  | nil => exact List.pairwise_singleton _ k
  | cons j l ih =>
    obtain ⟨hfirst, hrest⟩ := List.pairwise_cons.mp h
    rw [insertByArrival_cons]
    split
    · next hle =>
      refine List.pairwise_cons.mpr ⟨fun i hi => ?_, h⟩
      rcases List.mem_cons.mp hi with rfl | hi
      · exact hle
      · exact Nat.le_trans hle (hfirst i hi)
    · next hlt =>
      refine List.pairwise_cons.mpr ⟨fun i hi => ?_, ih hrest⟩
      rcases List.mem_cons.mp ((insertByArrival_perm a k l).mem_iff.mp hi) with rfl | hi
      · exact Nat.le_of_not_le hlt
      · exact hfirst i hi

theorem pendingSlots_eq (s : State) : pendingSlots s =
    (slotsWhere s fun c => decide (c.state = .pending)).foldr (insertByArrival s.arbiter) [] := rfl

theorem pendingSlots_perm (s : State) : (pendingSlots s).Perm (slotsWhere s fun c => decide (c.state = .pending)) := by
  rw [pendingSlots_eq]
  induction slotsWhere s fun c => decide (c.state = .pending) with
  | nil => exact .refl _
  | cons k l ih => exact (insertByArrival_perm s.arbiter k _).trans (ih.cons k)

theorem pendingSlots_nodup (s : State) : (pendingSlots s).Nodup := by
  rw [(pendingSlots_perm s).nodup_iff]
  exact List.Pairwise.filter _ List.nodup_range

theorem mem_pendingSlots : k ∈ pendingSlots s ↔ ∃ c, s.arbiter.claims.get k = some c ∧ c.state = .pending := by
  rw [(pendingSlots_perm s).mem_iff, mem_slotsWhere]
  refine ⟨fun ⟨_, c, hc, hp⟩ => ⟨c, hc, of_decide_eq_true hp⟩, fun ⟨c, hc, hp⟩ => ⟨slot_lt hc, c, hc, decide_eq_true hp⟩⟩

theorem pendingSlots_sorted (s : State) :
    (pendingSlots s).Pairwise fun i j => s.arbiter.arrivalAt i ≤ s.arbiter.arrivalAt j := by
  rw [pendingSlots_eq]
  induction slotsWhere s fun c => decide (c.state = .pending) with
  | nil => exact .nil
  | cons k l ih => exact insertByArrival_sorted s.arbiter k ih

/-- In a list sorted by a stamp the member with the lower stamp stands before the other. -/
theorem split_of_sorted {α : Type} {f : α → Nat} {l : List α} (hl : l.Pairwise fun a b => f a ≤ f b) {a b : α} (ha : a ∈ l)
    (hb : b ∈ l) (h : f a < f b) : ∃ before between after, l = before ++ a :: between ++ b :: after := by
  obtain ⟨before, rest, rfl⟩ := List.append_of_mem ha
  have hbrest : b ∈ rest := by
    rcases List.mem_append.mp hb with hb | hb
    · have hle : f b ≤ f a := (List.pairwise_append.mp hl).2.2 b hb a List.mem_cons_self
      omega
    · rcases List.mem_cons.mp hb with rfl | hb
      · exact absurd h (Nat.lt_irrefl _)
      · exact hb
  obtain ⟨between, after, rfl⟩ := List.append_of_mem hbrest
  exact ⟨before, between, after, by simp⟩

/-! ### The test at the end of an event (R88) -/

/-- Every PENDING claim of `s` is PENDING in `u` with what its CONFIRM REQUEST says, the order of the arrival stamps is the same,
and so is the confirm timeout. -/
structure PendingKept (s u : State) : Prop where
  claims : ∀ j < 16, ∀ d, s.arbiter.claims.get j = some d → d.state = .pending → ∃ e, u.arbiter.claims.get j = some e ∧
    e = { d with arrival := e.arrival, zonesHeld := e.zonesHeld }
  order : ∀ j < 16, ∀ k < 16, ∀ c d, s.arbiter.claims.get j = some c → s.arbiter.claims.get k = some d →
    c.state = .pending → d.state = .pending → c.arrival < d.arrival → u.arbiter.arrivalAt j < u.arbiter.arrivalAt k
  timeout : headerValue Header.confirmTimeout u = headerValue Header.confirmTimeout s

theorem PendingTested.of_testPending (hs : SoundTables u) (h : PendingKept s u) : PendingTested s (testPending u) := by
  rw [testPending_sound hs]
  have hasked := confirmWinners_asked hs (pendingSlots_nodup u)
  generalize confirmWinners (pendingSlots u) u = t at hasked ⊢
  have hwon (k : Nat) (hk : k ∈ (pendingSlots u).filter (wouldWin u)) : wouldWin u k = true := (List.mem_filter.mp hk).2
  have hwins {d e : Claim} (he : e = { d with arrival := e.arrival, zonesHeld := e.zonesHeld }) : Wins t d ↔ Wins u e :=
    wins_congr (fun z _ => hasked.sameCandidates hwon z) (congrArg Claim.level he).symm (congrArg Claim.selection he).symm
  have hmem {j : Nat} {d e : Claim} (hpending : d.state = .pending) (hej : u.arbiter.claims.get j = some e)
      (he : e = { d with arrival := e.arrival, zonesHeld := e.zonesHeld }) :
      j ∈ (pendingSlots u).filter (wouldWin u) ↔ Wins t d := by
    have hepending : e.state = .pending := (congrArg Claim.state he).trans hpending
    rw [List.mem_filter, wouldWin_iff, hwins he]
    refine ⟨fun ⟨_, f, hf, _, hw⟩ => ?_, fun hw => ⟨mem_pendingSlots.mpr ⟨e, hej, hepending⟩, e, hej, hepending, hw⟩⟩
    rwa [Option.some.inj (hej.symm.trans hf)]
  have hrequest {j n : Nat} {d e : Claim} (he : e = { d with arrival := e.arrival, zonesHeld := e.zonesHeld }) :
      e.confirmRequest j n = d.confirmRequest j n := by
    rw [he]
    rfl
  obtain ⟨before, number, hconfirms, hclaims⟩ := hasked.confirms
  refine ⟨fun j hj d hd hpending hfails => ?fails, fun j hj d hd hpending hpasses => ?passes,
    fun _ j hj k hk c d hc hd hcp hdp hcw hdw hlt => ?inOrder⟩
  case fails =>
    obtain ⟨e, hej, he⟩ := h.claims j hj d hd hpending
    rw [hasked.left j (mt (hmem hpending hej he).mp hfails), hej]
    exact congrArg some ((congrArg Claim.state he).trans hpending)
  case passes =>
    obtain ⟨e, hej, he⟩ := h.claims j hj d hd hpending
    have hj := (hmem hpending hej he).mpr hpasses
    refine ⟨number j, ?_, ?_⟩
    · rw [hclaims j hj, hej, ← h.timeout]
      rfl
    · rw [hconfirms, ← hrequest he]
      exact List.mem_append_right _ (List.mem_filterMap.mpr ⟨j, hj, by rw [hej]; rfl⟩)
  case inOrder =>
    obtain ⟨e, hej, he⟩ := h.claims j hj c hc hcp
    obtain ⟨f, hfk, hf⟩ := h.claims k hk d hd hdp
    obtain ⟨slots, between, after, hsplit⟩ := split_of_sorted ((pendingSlots_sorted u).filter _)
      ((hmem hcp hej he).mpr hcw) ((hmem hdp hfk hf).mpr hdw) (h.order j hj k hk c d hc hd hcp hdp hlt)
    have hfirst := hrequest (j := j) (n := number j) he
    have hsecond := hrequest (j := k) (n := number k) hf
    refine ⟨before ++ requestsFor u number slots, requestsFor u number between, requestsFor u number after, number j, number k, ?_⟩
    rw [hconfirms, hsplit]
    simp [requestsFor, hej, hfk, hfirst, hsecond]

end Sys2Proof.Machine
end

section
/-! SUPPORT. The claims through the holder choices of an event, and the test that ends it (R88, R99); releases, the timers of the
claims, and the supervision reservation. -/

namespace Sys2Proof.Machine

variable {s t u : State} {z k slot station : Nat} {zs ks : List Nat}

/-! ### Holder choices leave the claims, but for their zones-held counts (R101) -/

/-- A claim without its zones-held count. -/
def Claim.uncounted (c : Claim) : Claim := { c with zonesHeld := 0 }

/-- The claims are as they were, but for their zones-held counts. -/
def ClaimsStay (s t : State) : Prop :=
  ∀ k, (t.arbiter.claims.get k).map Claim.uncounted = (s.arbiter.claims.get k).map Claim.uncounted

namespace ClaimsStay

theorem of_claims (h : t.arbiter.claims = s.arbiter.claims) : ClaimsStay s t := fun k => by rw [h]

theorem refl (s : State) : ClaimsStay s s := fun _ => rfl

theorem trans (h : ClaimsStay s t) (g : ClaimsStay t u) : ClaimsStay s u := fun k => (g k).trans (h k)

theorem foldl {α : Type} {f : State → α → State} (h : ∀ t a, ClaimsStay t (f t a)) (l : List α) (s : State) :
    ClaimsStay s (l.foldl f s) := by
  induction l generalizing s with
  | nil => exact refl s
  | cons a l ih => exact (h s a).trans (ih (f s a))

theorem map_eq {α : Type} {f : Claim → α} (h : ClaimsStay s t) (hf : ∀ c, f c.uncounted = f c) (k : Nat) :
    (t.arbiter.claims.get k).map f = (s.arbiter.claims.get k).map f := by
  have hmap (o : Option Claim) : (o.map Claim.uncounted).map f = o.map f := by
    rw [Option.map_map]
    exact congrArg (Option.map · o) (funext hf)
  rw [← hmap, h k, hmap]

theorem bind_eq {α : Type} {f : Claim → Option α} (h : ClaimsStay s t) (hf : ∀ c, f c.uncounted = f c) (k : Nat) :
    (t.arbiter.claims.get k).bind f = (s.arbiter.claims.get k).bind f := by
  have hjoin (o : Option Claim) : (o.map f).join = o.bind f := by cases o <;> rfl
  rw [← hjoin, h.map_eq hf, hjoin]

theorem claim (h : ClaimsStay s t) {c : Claim} (hc : s.arbiter.claims.get k = some c) :
    ∃ d, t.arbiter.claims.get k = some d ∧ d = { c with zonesHeld := d.zonesHeld } := by
  have hk := h k
  rw [hc] at hk
  obtain ⟨d, hd, hdc⟩ := Option.map_eq_some_iff.mp hk
  refine ⟨d, hd, ?_⟩
  cases c
  cases d
  simp only [Claim.uncounted, Claim.mk.injEq] at hdc ⊢
  simp [hdc]

theorem giveHolder (z : Nat) (h : Holder) (level : Nat) (s : State) : ClaimsStay s (giveHolder z h level s) := fun k => by
  rw [(giveHolder_given z h level s).claims, Option.map_map]
  rfl

theorem decideHolder (z : Nat) (s : State) : ClaimsStay s (decideHolder z s) :=
  decideHolder_cases (P := ClaimsStay s) (fun h level _ => .giveHolder z h level s)
    fun h level _ => ClaimsStay.giveHolder z h level (unreserved s)

theorem touchZone (z : Nat) (s : State) : ClaimsStay s (touchZone z s).1 :=
  of_claims (by rw [touchZone_arbiter])

theorem touchZones (zs : List Nat) (s : State) : ClaimsStay s (touchZones zs s).1 := by
  induction zs generalizing s with
  | nil => exact .refl s
  | cons z zs ih => exact (ClaimsStay.touchZone z s).trans (ih _)

theorem chooseHolder (z : Nat) (s : State) : ClaimsStay s (chooseHolder z s) := by
  rw [chooseHolder_eq]
  split
  · exact (ClaimsStay.touchZone z s).trans (.decideHolder z _)
  · exact .decideHolder z s

theorem chooseHolders (zs : List Nat) (s : State) : ClaimsStay s (chooseHolders zs s) :=
  .foldl (fun t z => .chooseHolder z t) zs s

end ClaimsStay

/-! ### The test that ends an event (R88) -/

theorem PendingKept.stay (h : PendingKept s t) (g : ClaimsStay t u)
    (htimeout : headerValue Header.confirmTimeout u = headerValue Header.confirmTimeout t) : PendingKept s u where
  claims j hj d hd hpending := by
    obtain ⟨e, he, hed⟩ := h.claims j hj d hd hpending
    obtain ⟨f, hf, hfe⟩ := g.claim he
    refine ⟨f, hf, ?_⟩
    rw [hed] at hfe
    rw [hfe]
  order j hj k hk c d hc hd hcp hdp hlt := by
    have harrival (i : Nat) : u.arbiter.arrivalAt i = t.arbiter.arrivalAt i := by
      have hmap := g.map_eq (f := Claim.arrival) (fun _ => rfl) i
      unfold Arbiter.arrivalAt
      rcases ht : t.arbiter.claims.get i with _ | e <;> rcases hu : u.arbiter.claims.get i with _ | f <;>
        simp_all
    rw [harrival, harrival]
    exact h.order j hj k hk c d hc hd hcp hdp hlt
  timeout := htimeout.trans h.timeout

theorem headerValue_congr (f : Header → Nat) (h : t.tables = s.tables) : headerValue f t = headerValue f s := by
  unfold headerValue State.marked State.passes
  rw [h]

theorem PendingKept.of_claims (hclaims : u.arbiter.claims = s.arbiter.claims) (htables : u.tables = s.tables) :
    PendingKept s u where
  claims _ _ d hd _ := ⟨d, by rw [hclaims, hd], rfl⟩
  order j _ k _ c d hc hd _ _ hlt := by rwa [arrivalAt_of (hclaims ▸ hc), arrivalAt_of (hclaims ▸ hd)]
  timeout := headerValue_congr _ htables

theorem PendingKept.refl (s : State) : PendingKept s s := .of_claims rfl rfl

/-- Holder choices with sound tables keep the PENDING claims. -/
theorem PendingKept.chooseHolders (hs : SoundTables t) (h : PendingKept s t) (zs : List Nat) :
    PendingKept s (chooseHolders zs t) :=
  h.stay (.chooseHolders zs t) (headerValue_congr _ (chooseHolders_quiet zs hs).tables)

/-- An event with a holder choice ends with the test of every PENDING claim. -/
theorem PendingTested.choiceEvent (hs : SoundTables t) (h : PendingKept s t) (hzs : zs ≠ []) :
    PendingTested s (choiceEvent zs t) := by
  unfold Machine.choiceEvent
  rw [if_neg hzs]
  exact .of_testPending ((chooseHolders_quiet zs hs).sound hs) (h.chooseHolders hs zs)

/-! ### Releases and the timers of the claims (R89, R93, R96) -/

theorem slotOnAir_of {c : Claim} {stamp : Nat} (hc : s.arbiter.claims.get k = some c) (hstate : c.state = .onAir stamp) :
    s.slotOnAir k = true := by
  obtain ⟨station, channel, level, selection, state, arrival, waitCount, zonesHeld⟩ := c
  subst hstate
  simp [State.slotOnAir, hc]

/-- The freeing of slots without a PENDING claim keeps the PENDING claims. -/
theorem PendingKept.emptied (h : ∀ k ∈ ks, ∀ c, s.arbiter.claims.get k = some c → c.state ≠ .pending) :
    PendingKept s (s.onArbiter (Arbiter.emptied ks)) := by
  have hstays {j : Nat} {c : Claim} (hc : s.arbiter.claims.get j = some c) (hpending : c.state = .pending) :
      (s.onArbiter (Arbiter.emptied ks)).arbiter.claims.get j = some c := by
    rw [emptied_get, if_neg fun hmem => h j hmem c hc hpending, hc]
  refine ⟨fun j _ d hd hpending => ⟨d, hstays hd hpending, rfl⟩, fun j _ k _ c d hc hd hcp hdp hlt => ?_, rfl⟩
  rwa [arrivalAt_of (hstays hc hcp), arrivalAt_of (hstays hd hdp)]

/-- The freeing of a slot with an ON-AIR claim ends with the test of every PENDING claim (R96). -/
theorem PendingTested.freeSlots {c : Claim} {stamp : Nat} (hs : SoundTables s) (hc : s.arbiter.claims.get slot = some c)
    (hstate : c.state = .onAir stamp) : PendingTested s (freeSlots [slot] s) := by
  have honAir : [slot].any s.slotOnAir = true := by simp [slotOnAir_of hc hstate]
  have hkept : PendingKept s (s.onArbiter (Arbiter.emptied [slot])) := .emptied fun k hk d hd hpending => by
    rw [List.mem_singleton.mp hk, hc] at hd
    rw [← Option.some.inj hd, hstate] at hpending
    cases hpending
  have hs' : SoundTables (s.onArbiter (Arbiter.emptied [slot])) := hs
  rw [freeSlots_eq]
  dsimp only
  rw [if_pos honAir]
  exact .of_testPending ((chooseHolders_quiet _ hs').sound hs') (hkept.chooseHolders hs' _)

theorem release_of {c : Claim} (hc : s.arbiter.claims.get slot = some c) (hstation : c.station = station) :
    release station slot s = freeSlots [slot] s := by
  simp [release, hc, hstation]

theorem release_other (h : ∀ c, s.arbiter.claims.get slot = some c → c.station ≠ station) : release station slot s = s := by
  unfold release
  split
  · next c hc => exact if_neg (h c hc)
  · rfl

theorem timedOut_iff {p : ClaimState} : p.timedOut = true ↔ ∃ number, p = .confirming number 0 := by
  rcases p with _ | ⟨number, _ | timer⟩ | timer | stamp <;> simp [ClaimState.timedOut]

theorem retryDue_iff {p : ClaimState} : p.retryDue = true ↔ p = .waiting 0 := by
  rcases p with _ | ⟨number, timer⟩ | (_ | timer) | stamp <;> simp [ClaimState.retryDue]

theorem exec_confirmTimeout_of {c : Claim} (hc : s.arbiter.claims.get slot = some c) (h : c.state.timedOut = true) :
    exec (.confirmTimeout slot) s = settled (dropClaims .noAnswer [slot] s) := by
  show settled _ = _
  simp only [hc, h, if_true]

theorem exec_confirmTimeout_other (h : ∀ c, s.arbiter.claims.get slot = some c → c.state.timedOut ≠ true) :
    exec (.confirmTimeout slot) s = settled s := by
  show settled _ = _
  rcases hc : s.arbiter.claims.get slot with _ | c
  · rfl
  · exact congrArg settled (if_neg (h c hc))

theorem exec_retryIntervalEnd_of {c : Claim} (hc : s.arbiter.claims.get slot = some c) (h : c.state.retryDue = true) :
    exec (.retryIntervalEnd slot) s = settled (enterConfirming slot s) := by
  show settled _ = _
  simp only [hc, h, if_true]

theorem exec_retryIntervalEnd_other (h : ∀ c, s.arbiter.claims.get slot = some c → c.state.retryDue ≠ true) :
    exec (.retryIntervalEnd slot) s = settled s := by
  show settled _ = _
  rcases hc : s.arbiter.claims.get slot with _ | c
  · rfl
  · exact congrArg settled (if_neg (h c hc))

/-- Settles O41. -/
theorem releasesAndClaimTimers : Obligations.ReleasesAndClaimTimers := by
  refine ⟨fun station slot s => ⟨fun c hc hstation => ?release, fun h => congrArg settled (release_other h)⟩,
    fun slot s => ⟨fun c number hc hstate => ?timeout, fun h => ?running, fun c hc hstate => ?retry, fun h => ?waits⟩⟩
  case release =>
    have hfreed := Rearranged.freeSlots [slot] s
    refine ⟨freeSlots [slot] s, congrArg settled (release_of hc hstation), (freeSlots_worked [slot] s).toBeside,
      freeSlots_none List.mem_cons_self, fun z hz => freeSlots_ne_slot List.mem_cons_self hz, hfreed.planClaims,
      fun j _ hj => ?_, fun hs => (freeSlots_quiet hs).2, fun stamp hstate hs => .freeSlots hs hc hstate⟩
    rw [hfreed.map_eq fun _ => rfl, emptied_get, if_neg (mt List.mem_singleton.mp hj)]
  case timeout =>
    have hdropped := dropClaims_single (reason := .noAnswer) hc
    exact ⟨_, exec_confirmTimeout_of hc (timedOut_iff.mpr ⟨number, hstate⟩), hdropped⟩
  case running =>
    exact exec_confirmTimeout_other fun c hc hout =>
      have ⟨number, hstate⟩ := timedOut_iff.mp hout
      h c number hc hstate
  case retry =>
    refine (exec_retryIntervalEnd_of hc (retryDue_iff.mpr hstate)).trans (congrArg settled ?_)
    rw [enterConfirming_of hc]
    rfl
  case waits => exact exec_retryIntervalEnd_other fun c hc hdue => h c hc (retryDue_iff.mp hdue)

end Sys2Proof.Machine
end

section
/-! SUPPORT. The supervision reservation (R102): granted with the test that follows, moved and released. -/

namespace Sys2Proof.Machine

variable {s t : State} {z : Nat}

/-- The reach of the arbiter's own choices. -/
def Reach.none : Reach := ⟨False, False, False, False⟩

/-- The choices of an event end the reservation or leave it. -/
theorem choiceEvent_reserved (zs : List Nat) (s : State) :
    (choiceEvent zs s).arbiter.reserved = none ∨ (choiceEvent zs s).arbiter.reserved = s.arbiter.reserved :=
  (Kept.choiceEvent (x := .none) (D := .empty) (s := s) (zs := zs) nofun).reserved id

theorem reserve_eq (z : Nat) (s : State) : reserve z s = choiceEvent [z] (reserving z s) := rfl

theorem reserve_reserved (z : Nat) (s : State) :
    (reserve z s).arbiter.reserved = none ∨ (reserve z s).arbiter.reserved = some z := choiceEvent_reserved [z] (reserving z s)

/-- After a request for a reservation no other zone is reserved. -/
theorem requestReservation_reserved {y : Nat} (h : (requestReservation z s).1.arbiter.reserved = some y) : y = z := by
  unfold requestReservation at h
  split at h
  · rcases reserve_reserved z (endOtherReservation z s) with hnone | hsome
    · rw [hnone] at h
      cases h
    · rw [hsome] at h
      exact (Option.some.inj h).symm
  · exact endOtherReservation_reserved h

theorem releaseReservation_none (h : s.arbiter.reserved = some z) : (releaseReservation z s).arbiter.reserved = none := by
  rw [releaseReservation, if_pos h]
  rcases choiceEvent_reserved [z] (unreserved s) with hnone | hsame
  · exact hnone
  · exact hsame

theorem releaseReservation_other (h : s.arbiter.reserved ≠ some z) : releaseReservation z s = s := if_neg h

theorem exec_reservationRequest (hz : z < 128) : exec (.reservationRequest z) s = settled (requestReservation z s).1 :=
  congrArg settled (if_pos hz)

/-- Settles O46. -/
theorem reservationsHeldAndEnded : Obligations.ReservationsHeldAndEnded := by
  refine fun z s hz hl => ⟨fun hs hother hnone => ?granted, fun hfree hheld => ?held, fun y hy hyz => ?moved, fun hr => ?released,
    fun hr => congrArg settled (releaseReservation_other hr)⟩
  case granted =>
    have hgrants := requestReservation_grants hs (hl z hz) hother hnone
    have hs' : SoundTables (reserving z s) := hs
    have hasked := Asked.testPending hs'
    have hbeside : Beside s (requestReservation z s).1 := (requestReservation_worked z s).toBeside
    rw [hgrants] at hbeside
    refine ⟨_, (exec_reservationRequest hz).trans (by rw [hgrants]; rfl), hbeside, hasked.reserved, hasked.holders,
      hasked.sequencer, ?_⟩
    exact .of_testPending hs' (.of_claims rfl rfl)
  case held =>
    exact (exec_reservationRequest hz).trans (by rw [requestReservation_held (.inl hfree) hheld]; rfl)
  case moved =>
    exact ⟨_, exec_reservationRequest hz, (requestReservation_worked z s).toBeside, fun h => hyz (requestReservation_reserved h)⟩
  case released =>
    have hkept : Kept .none .empty s .empty (releaseReservation z s) := .releaseReservation
    have hnone := releaseReservation_none hr
    refine ⟨releaseReservation z s, rfl, (releaseReservation_worked z s).toBeside, hnone, ?_, releaseReservation_sequencer z s,
      fun hs => ?_⟩
    · have hlaw := holders_empty.mp (hkept.holder (holders_empty.mpr hl)) z hz
      exact hlaw.winner (by rw [hnone]; exact nofun)
    · have hs' : SoundTables (unreserved s) := hs
      rw [releaseReservation, if_pos hr]
      exact .choiceEvent hs' (.of_claims rfl rfl) (List.cons_ne_nil _ _)

end Sys2Proof.Machine
end

section
/-! SUPPORT. SET MASK and SET TRIM (R81, R121): an answer given beside the arbiter's work, and what the work keeps. -/

namespace Sys2Proof.Machine

variable {q : Sender} {s t u v : State} {z first count value : Nat}

/-! ### An answer given after the arbiter's work (R152) -/

/-- The place reserved for the command in hand is filled, the work having left the places alone. -/
theorem giveAnswer_beside (hhand : HandLaw s.router) (h : Beside (reservePlace q s) v) (body : AnswerBody) :
    giveAnswer .command body v =
      v.onRouter fun r => { r with places := s.router.places ++ [.filled (answerTo q s.router.address body)] } := by
  have hfirst : ∀ x, Place.reserved .command x ∉ s.router.places := fun x hx => hhand _ hx x rfl
  have hplaces : v.router.places = s.router.places ++ [.reserved .command q] := h.places
  have haddress : v.router.address = s.router.address := h.address
  unfold giveAnswer State.onRouter
  dsimp only
  rw [hplaces, haddress, fillPlace_append hfirst]
  simp [fillPlace]

theorem answerQueued_beside (hhand : HandLaw s.router) (h : Beside (reservePlace q s) v) (body : AnswerBody) :
    AnswerQueued q body (giveAnswer .command body v) := by
  rw [giveAnswer_beside hhand h]
  exact ⟨s.router.address, List.mem_append_right _ List.mem_cons_self⟩

theorem handLaw_lookedUp (h : HandLaw s.router) (q : Sender) : HandLaw (lookedUp q s).router :=
  h.of_places (by rw [(lookedUp_beside q s).1])

/-- A request whose owner answers, taken from a bound part. -/
theorem Heard.request_worked {type : Nat} {need : Authority} {data refusal : List Byte} {status : Status}
    {owner : State → State × Reply} (h : Heard q need s)
    (howner : owner (reservePlace q (lookedUp q s)) = (v, some (status, data))) :
    request q type need refusal owner s = giveAnswer .command (.response type status data) v := by
  rw [request_heard h.toEntitled (.inl h.bound), howner]

/-! ### What an answer leaves of the test of the PENDING claims (R88) -/

theorem PendingTested.congr (h : PendingTested s t) (harbiter : u.arbiter = t.arbiter) (htables : u.tables = t.tables)
    (hconfirms : u.router.confirms = t.router.confirms) : PendingTested s u := by
  have hgroup (z : Nat) : groupOf u z = groupOf t z := by
    unfold groupOf State.marked
    rw [htables]
  have hsame (z : Nat) : SameCandidates z t u :=
    ⟨hgroup z, by rw [harbiter], by rw [harbiter], fun k _ => by rw [harbiter]⟩
  have hwins (d : Claim) : Wins u d ↔ Wins t d := wins_congr (fun z _ => hsame z) rfl rfl
  refine ⟨fun j hj d hd hp hw => ?_, fun j hj d hd hp hw => ?_, fun hstamp j hj k hk c d hc hd hcp hdp hcw hdw hlt => ?_⟩
  · rw [harbiter]
    exact h.fails j hj d hd hp (mt (hwins d).mpr hw)
  · rw [harbiter, hconfirms]
    exact h.passes j hj d hd hp ((hwins d).mp hw)
  · rw [hconfirms]
    exact h.inOrder hstamp j hj k hk c d hc hd hcp hdp ((hwins c).mp hcw) ((hwins d).mp hdw) hlt

/-! ### SET MASK (R81) -/

theorem setMask_badValue (h : count = 0 ∨ 128 < first + count ∨ 6 < value) : setMask first count value s = (s, .badValue) :=
  if_pos h

/-- The zones of a span. -/
def spanZones (first count : Nat) : List Nat := (List.range count).map (first + ·)

/-- The part with the masks set, each choice made and each ZONE_DISABLED checked. -/
def maskChoices (first count value : Nat) (s : State) : State :=
  chooseAndCheck s.arbiter.masks (spanZones first count) (setMasks first count value s)

theorem setMask_ok (hcount : 1 ≤ count) (hspan : first + count ≤ 128) (hvalue : value ≤ 6) :
    setMask first count value s = (testPending (maskChoices first count value s), .ok) := if_neg (by omega)

theorem setMasks_get (hz : z < 128) : (setMasks first count value s).arbiter.masks.get z =
    if first ≤ z ∧ z < first + count then value else s.arbiter.masks.get z := Tab.get_mapIdx _ _ hz

theorem ClaimsStay.chooseAndCheck (old : Tab Nat 128) (zs : List Nat) (s : State) : ClaimsStay s (chooseAndCheck old zs s) :=
  .foldl (fun t z => (ClaimsStay.chooseHolder z t).trans (.of_claims (by rw [zoneDisabledCheck_eq]; rfl))) zs s

theorem maskChoices_rebased (hs : SoundTables s) (first count value : Nat) :
    Rebased (setMasks first count value s) (maskChoices first count value s) := .chooseAndCheck _ _ hs

/-- With sound tables SET MASK ends with the test of every PENDING claim. -/
theorem setMask_tested (hs : SoundTables s) (first count value : Nat) :
    PendingTested s (testPending (maskChoices first count value s)) := by
  have hrebased := maskChoices_rebased hs first count value
  have hkept : PendingKept s (setMasks first count value s) := .of_claims rfl rfl
  exact .of_testPending (hrebased.sound hs)
    (hkept.stay (.chooseAndCheck _ _ _) (headerValue_congr _ hrebased.tables))

theorem setMask_rebased (hs : SoundTables s) (first count value : Nat) :
    Rebased (setMasks first count value s) (testPending (maskChoices first count value s)) :=
  (maskChoices_rebased hs first count value).trans
    (.of_quiet (testPending_quiet ((maskChoices_rebased hs first count value).sound hs)))

/-- The ZONE_DISABLED check of one zone whose mask is set (R82). -/
theorem setMask_one (hs : SoundTables s) (hfirst : first < 128) :
    (testPending (maskChoices first 1 value s)).faultUnit =
      if s.arbiter.masks.get first < 3 ∧ 3 ≤ value then s.faultUnit.add (.zoneDisabled first) s.timer.seconds
      else if 3 ≤ s.arbiter.masks.get first ∧ value < 3 then s.faultUnit.remove (.zoneDisabled first) s.timer.seconds
      else s.faultUnit := by
  have hs' : SoundTables (setMasks first 1 value s) := hs
  have hquiet := chooseHolder_quiet first hs'
  have htimer : (chooseHolder first (setMasks first 1 value s)).timer = s.timer :=
    (chooseHolder_worked first (setMasks first 1 value s)).timer
  have hmask : (chooseHolder first (setMasks first 1 value s)).arbiter.masks.get first = value := by
    rw [hquiet.masks, setMasks_get hfirst, if_pos ⟨Nat.le_refl _, Nat.lt_succ_self _⟩]
  have hfaults : (chooseHolder first (setMasks first 1 value s)).faultUnit = s.faultUnit := hquiet.faultUnit
  have hone : maskChoices first 1 value s =
      zoneDisabledCheck (s.arbiter.masks.get first) first (chooseHolder first (setMasks first 1 value s)) := rfl
  rw [(testPending_quiet ((maskChoices_rebased hs first 1 value).sound hs)).faultUnit, hone, zoneDisabledCheck_eq,
    State.onFaultUnit_faultUnit, hmask, htimer, hfaults]

/-- What is left of SET MASK. -/
theorem setMask_taken (s : State) (hcount : 1 ≤ count) (hspan : first + count ≤ 128) (hvalue : value ≤ 6) :
    ∃ t, setMask first count value s = (t, .ok) ∧ Beside s t ∧ t.arbiter.planClaims = s.arbiter.planClaims ∧
      (SoundTables s → Rebased (setMasks first count value s) t ∧ PendingTested s t ∧ (count = 1 → t.faultUnit =
        if s.arbiter.masks.get first < 3 ∧ 3 ≤ value then s.faultUnit.add (.zoneDisabled first) s.timer.seconds
        else if 3 ≤ s.arbiter.masks.get first ∧ value < 3 then s.faultUnit.remove (.zoneDisabled first) s.timer.seconds
        else s.faultUnit)) := by
  have hok := setMask_ok (s := s) hcount hspan hvalue
  have hworked := setMask_worked first count value s
  have hplan := (Kept.setMask (x := .none) (D := .empty) (s := s) first count value).plan id
  rw [hok] at hworked hplan
  refine ⟨_, hok, hworked.toBeside, hplan, fun hs => ⟨setMask_rebased hs .., setMask_tested hs .., fun hone => ?_⟩⟩
  subst hone
  exact setMask_one hs (by omega)

/-! ### SET TRIM (R121) -/

theorem setTrim_badValue (h : count = 0 ∨ 128 < first + count ∨ 31 < value) : setTrim first count value s = (s, .badValue) :=
  if_pos h

/-- The trims with those of a span set. -/
def trimsSet (first count value : Nat) (s : State) : Tab Nat 128 :=
  s.crosspoint.trims.mapIdx fun z m => if first ≤ z ∧ z < first + count then value else m

theorem setTrim_ok (hcount : 1 ≤ count) (hspan : first + count ≤ 128) (hvalue : value ≤ 31) :
    setTrim first count value s =
      ({ s with crosspoint := { s.crosspoint with trims := trimsSet first count value s } }, .ok) := if_neg (by omega)

/-- Settles O45. -/
theorem masksAndTrimsAreSet : Obligations.MasksAndTrimsAreSet := by
  refine ⟨fun q first count value s h => ⟨fun hbad => congrArg settled ?badMask, fun hcount hspan hvalue => ?mask⟩,
    fun q first count value s h => ⟨fun hbad => congrArg settled ?badTrim,
      fun hcount hspan hvalue => ⟨trimsSet first count value (lookedUp q s), congrArg settled ?trim,
        fun z hz => Tab.get_mapIdx _ _ hz⟩⟩⟩
  case badMask => exact h.request_refused (by rw [setMask_badValue hbad])
  case badTrim => exact h.request_refused (by rw [setTrim_badValue hbad])
  case trim =>
    refine h.request_answered (by rw [setTrim_ok hcount hspan hvalue]; rfl) ?_
    exact congrArg Router.places (lookedUp_beside q s).1
  case mask =>
    obtain ⟨v, hok, hbeside, hplan, hsound⟩ := setMask_taken (reservePlace q (lookedUp q s)) hcount hspan hvalue
    have hlooked := (lookedUp_worked q s).toBeside
    have hrequest : setMaskRequest q first count value s = giveAnswer .command (.response 12 .ok []) v :=
      h.request_worked (by rw [hok])
    refine ⟨_, congrArg settled hrequest, answerQueued_beside (handLaw_lookedUp h.hand q) hbeside _,
      hbeside.engine.trans hlooked.engine, hplan.trans ?_, hbeside.timer.trans hlooked.timer, hbeside.sPort.trans hlooked.sPort,
      hbeside.zPort.trans hlooked.zPort, hbeside.edit.trans hlooked.edit, fun hs => ?_⟩
    · exact congrArg Arbiter.planClaims (lookedUp_beside q s).2.1
    · rw [lookedUp_sound hs] at hsound
      obtain ⟨hrebased, htested, hone⟩ := hsound hs
      have htested : PendingTested s v := ⟨htested.fails, htested.passes, htested.inOrder⟩
      refine ⟨fun z hz => ?_, hrebased.trims, htested.congr rfl rfl rfl, hone⟩
      exact (congrArg (fun m : Tab Nat 128 => m.get z) hrebased.masks).trans (setMasks_get hz)

end Sys2Proof.Machine
end

section
/-! SUPPORT. A claim goes on air (R84, R91): its stamp, the choices that follow, and the answers that lead to it (R91, R92). -/

namespace Sys2Proof.Machine

variable {s t u : State} {z k slot station number : Nat} {zs ks : List Nat} {c : Claim}

/-! ### The choices and tests leave the stamps (R84) -/

/-- The on-air stamps and the counters of both kinds of stamp are as they were. -/
structure StampsStay (s t : State) : Prop where
  stamp : ∀ k, (t.arbiter.claims.get k).bind Claim.onAirStamp = (s.arbiter.claims.get k).bind Claim.onAirStamp
  onAir : t.arbiter.onAirCounter = s.arbiter.onAirCounter
  arrival : t.arbiter.arrivalCounter = s.arbiter.arrivalCounter

namespace StampsStay

theorem refl (s : State) : StampsStay s s := ⟨fun _ => rfl, rfl, rfl⟩

theorem trans (h : StampsStay s t) (g : StampsStay t u) : StampsStay s u :=
  ⟨fun k => (g.stamp k).trans (h.stamp k), g.onAir.trans h.onAir, g.arrival.trans h.arrival⟩

theorem foldl {α : Type} {f : State → α → State} (h : ∀ t a, StampsStay t (f t a)) (l : List α) (s : State) :
    StampsStay s (l.foldl f s) := by
  induction l generalizing s with
  | nil => exact refl s
  | cons a l ih => exact (h s a).trans (ih (f s a))

theorem of_stay (h : ClaimsStay s t) (honAir : t.arbiter.onAirCounter = s.arbiter.onAirCounter)
    (harrival : t.arbiter.arrivalCounter = s.arbiter.arrivalCounter) : StampsStay s t :=
  ⟨h.bind_eq fun _ => rfl, honAir, harrival⟩

theorem offAir (h : StampsStay s t) (hoff : OffAir s k) : OffAir t k := (h.stamp k).trans hoff

theorem touchZone (z : Nat) (s : State) : StampsStay s (touchZone z s).1 := by
  refine .of_stay (.touchZone z s) ?_ ?_
  all_goals rw [touchZone_arbiter]

theorem touchZones (zs : List Nat) (s : State) : StampsStay s (touchZones zs s).1 := by
  induction zs generalizing s with
  | nil => exact .refl s
  | cons z zs ih => exact (StampsStay.touchZone z s).trans (ih _)

theorem giveHolder (z : Nat) (h : Holder) (level : Nat) (s : State) : StampsStay s (giveHolder z h level s) := by
  refine .of_stay (.giveHolder z h level s) ?_ ?_
  all_goals rw [(giveHolder_given z h level s).rest]

theorem decideHolder (z : Nat) (s : State) : StampsStay s (decideHolder z s) :=
  decideHolder_cases (P := StampsStay s) (fun h level _ => .giveHolder z h level s) fun h level _ => by
    have hgiven := StampsStay.giveHolder z h level (unreserved s)
    exact ⟨hgiven.stamp, hgiven.onAir, hgiven.arrival⟩

theorem chooseHolder (z : Nat) (s : State) : StampsStay s (chooseHolder z s) := by
  rw [chooseHolder_eq]
  split
  · exact (StampsStay.touchZone z s).trans (.decideHolder z _)
  · exact .decideHolder z s

theorem chooseHolders (zs : List Nat) (s : State) : StampsStay s (chooseHolders zs s) :=
  .foldl (fun t z => .chooseHolder z t) zs s

theorem enterConfirming (hoff : OffAir s k) : StampsStay s (enterConfirming k s) := by
  rcases hc : s.arbiter.claims.get k with _ | c
  · unfold Machine.enterConfirming
    rw [hc]
    exact .refl s
  · rw [enterConfirming_of hc]
    dsimp only
    rw [headerUsed_arbiter]
    refine ⟨fun j => ?_, rfl, rfl⟩
    by_cases hjk : j = k
    · subst hjk
      exact (congrArg (Option.bind · Claim.onAirStamp) (Tab.get_set_self _ _ (slot_lt hc))).trans hoff.symm
    · exact congrArg (Option.bind · Claim.onAirStamp) (Tab.get_set_ne _ _ (Ne.symm hjk))

theorem offAir_of_wouldWin (h : wouldWin s k = true) : OffAir s k := by
  obtain ⟨c, hc, hpending, -⟩ := wouldWin_iff.mp h
  rw [OffAir, hc, Option.bind_some, Claim.onAirStamp, hpending]

theorem confirmWinners (ks : List Nat) (s : State) : StampsStay s (confirmWinners ks s) := by
  suffices h : ∀ t, StampsStay s t →
      StampsStay s (ks.foldl (fun t k => if wouldWin s k then Machine.enterConfirming k t else t) t) from h s (.refl s)
  induction ks with
  | nil => exact fun t ht => ht
  | cons k ks ih =>
    refine fun t ht => ih _ ?_
    dsimp only
    split
    · next hwin => exact ht.trans (.enterConfirming (ht.offAir (offAir_of_wouldWin hwin)))
    · exact ht

theorem wouldWinTest (ks : List Nat) (s : State) : StampsStay s (wouldWinTest ks s) := by
  have h := StampsStay.touchZones (testReads s ks) s
  unfold Machine.wouldWinTest
  split
  · next t ht =>
    rw [ht] at h
    exact h.trans (.confirmWinners ks t)
  · next t fresh _ ht =>
    rw [ht] at h
    exact h.trans ((StampsStay.chooseHolders fresh t).trans ((StampsStay.confirmWinners ks _).trans
      ((StampsStay.touchZones _ _).trans ((StampsStay.chooseHolders _ _).trans (.confirmWinners _ _)))))

theorem testPending (s : State) : StampsStay s (testPending s) := .wouldWinTest _ s

theorem choiceEvent (zs : List Nat) (s : State) : StampsStay s (choiceEvent zs s) := by
  unfold Machine.choiceEvent
  split
  · exact .refl s
  · exact (StampsStay.chooseHolders zs s).trans (.testPending _)

end StampsStay

/-! ### A claim goes on air (R84, R91) -/

theorem onAirStamp_eq_some {n : Nat} : c.onAirStamp = some n ↔ c.state = .onAir n := by
  unfold Claim.onAirStamp
  rcases c.state <;> simp

theorem onAirChoices_eq (sel : Selection) (s : State) :
    onAirChoices sel s =
      let read := touchZones (if sel.isGroups then List.range 128 else []) s
      choiceEvent (indices 128 fun z => selects read.1 sel z || read.2.contains z) read.1 := rfl

theorem Rearranged.onAirChoices (sel : Selection) (s : State) : Rearranged s (onAirChoices sel s) := by
  rw [onAirChoices_eq]
  exact (Rearranged.touchZones _ s).trans (.choiceEvent _ _)

theorem StampsStay.onAirChoices (sel : Selection) (s : State) : StampsStay s (onAirChoices sel s) := by
  rw [onAirChoices_eq]
  exact (StampsStay.touchZones _ s).trans (.choiceEvent _ _)

theorem enterOnAir_of (h : s.arbiter.claims.get k = some c) : enterOnAir k s = onAirChoices c.selection (putOnAir k s) := by
  unfold enterOnAir
  rw [h]

/-- The claim `c` in slot `k` has gone on air: it holds the new stamp, and the other claims have the stamps this leaves them. -/
structure WentOnAir (k : Nat) (c : Claim) (s t : State) : Prop where
  claim : ∃ d, t.arbiter.claims.get k = some d ∧ d.state = .onAir t.arbiter.onAirCounter ∧ d.identity = c.identity
  given : StampGiven k s t
  others : ∀ j, j ≠ k → (t.arbiter.claims.get j).map Claim.identity = (s.arbiter.claims.get j).map Claim.identity
  arrival : t.arbiter.arrivalCounter = s.arbiter.arrivalCounter

theorem wentOnAir_putOnAir (hc : s.arbiter.claims.get k = some c) : WentOnAir k c s (putOnAir k s) where
  claim :=
    have hput : (putOnAir k s).arbiter.claims.get k =
        some { c.withStampAfter s.arbiter with state := .onAir s.arbiter.nextOnAir.onAirCounter } := by
      rw [putOnAir_claims, hc, Option.map_some, if_pos rfl]
    ⟨_, hput, rfl, rfl⟩
  given := ⟨rfl, fun j _ hj => by
    rw [putOnAir_claims, nextOnAir_claims]
    exact congrArg (Option.bind · Claim.onAirStamp) (Option.map_congr fun _ _ => if_neg (Ne.symm hj))⟩
  others j hj := by
    rw [putOnAir_claims, Option.map_map]
    refine Option.map_congr fun d _ => ?_
    show (if k = j then _ else d.withStampAfter s.arbiter).identity = _
    rw [if_neg (Ne.symm hj)]
    rfl
  arrival := (nextOnAir_fields s.arbiter).2.2.2.2.1

theorem WentOnAir.rearranged (h : WentOnAir k c s t) (hclaims : Rearranged t u) (hstamps : StampsStay t u) : WentOnAir k c s u where
  claim := by
    obtain ⟨d, hd, hstate, hidentity⟩ := h.claim
    have hmap := hclaims.claims k
    rw [hd] at hmap
    obtain ⟨e, he, hed⟩ := Option.map_eq_some_iff.mp hmap
    have hstamp := hstamps.stamp k
    rw [hd, he, Option.bind_some, Option.bind_some, onAirStamp_eq_some.mpr hstate] at hstamp
    exact ⟨e, he, by rw [hstamps.onAir]; exact onAirStamp_eq_some.mp hstamp, hed.trans hidentity⟩
  given := ⟨hstamps.onAir.trans h.given.counter, fun j hj hne => (hstamps.stamp j).trans (h.given.others j hj hne)⟩
  others j hj := (hclaims.claims j).trans (h.others j hj)
  arrival := hstamps.arrival.trans h.arrival

theorem wentOnAir (hc : s.arbiter.claims.get k = some c) : WentOnAir k c s (enterOnAir k s) := by
  rw [enterOnAir_of hc]
  exact (wentOnAir_putOnAir hc).rearranged (.onAirChoices _ _) (.onAirChoices _ _)

/-! ### The test that follows (R88) -/

/-- A claim that goes on air was not PENDING before the event: the PENDING claims are kept. -/
theorem PendingKept.putOnAir (h : PendingKept s t) (hslot : ∀ d, s.arbiter.claims.get k = some d → d.state ≠ .pending) :
    PendingKept s (putOnAir k t) := by
  have hstays {j : Nat} {d e : Claim} (hd : s.arbiter.claims.get j = some d) (hpending : d.state = .pending)
      (he : t.arbiter.claims.get j = some e) (hed : e.state = .pending) :
      (Machine.putOnAir k t).arbiter.claims.get j = some e := by
    have hne : k ≠ j := fun hkj => hslot d (hkj ▸ hd) hpending
    have hoff : e.onAirStamp = none := by simp [Claim.onAirStamp, hed]
    rw [putOnAir_claims, he, Option.map_some, if_neg hne, withStampAfter_of_offAir hoff]
  have hpend {j : Nat} {d : Claim} (hj : j < 16) (hd : s.arbiter.claims.get j = some d) (hpending : d.state = .pending) :
      ∃ e, t.arbiter.claims.get j = some e ∧ (Machine.putOnAir k t).arbiter.claims.get j = some e ∧
        e = { d with arrival := e.arrival, zonesHeld := e.zonesHeld } := by
    obtain ⟨e, he, hed⟩ := h.claims j hj d hd hpending
    exact ⟨e, he, hstays hd hpending he ((congrArg Claim.state hed).trans hpending), hed⟩
  refine ⟨fun j hj d hd hpending => ?_, fun i hi j hj c d hc hd hcp hdp hlt => ?_, h.timeout⟩
  · obtain ⟨e, -, he, hed⟩ := hpend hj hd hpending
    exact ⟨e, he, hed⟩
  · obtain ⟨e, he, he', -⟩ := hpend hi hc hcp
    obtain ⟨f, hf, hf', -⟩ := hpend hj hd hdp
    have horder := h.order i hi j hj c d hc hd hcp hdp hlt
    rw [arrivalAt_of he, arrivalAt_of hf] at horder
    rwa [arrivalAt_of he', arrivalAt_of hf']

/-- With sound tables the event of a claim that goes on air and selects a zone ends with the test of every PENDING claim. -/
theorem PendingTested.enterOnAir (hs : SoundTables t) (hc : t.arbiter.claims.get k = some c) (h : PendingKept s t)
    (hslot : ∀ d, s.arbiter.claims.get k = some d → d.state ≠ .pending) (hz : z < 128) (hselects : selects t c.selection z = true) :
    PendingTested s (enterOnAir k t) := by
  have hs' : SoundTables (putOnAir k t) := hs
  have hmem : z ∈ indices 128 fun z => selects (putOnAir k t) c.selection z || ([] : List Nat).contains z :=
    mem_indices.mpr ⟨hz, Bool.or_eq_true_iff.mpr (.inl hselects)⟩
  rw [enterOnAir_of hc, onAirChoices_eq, touchZones_sound hs']
  exact .choiceEvent hs' (h.putOnAir hslot) (List.ne_nil_of_mem hmem)

/-! ### READY and DEFAULT answers (R91, R92) -/

theorem offAir_of_confirming {n timer : Nat} (hc : s.arbiter.claims.get k = some c) (hstate : c.state = .confirming n timer) :
    OffAir s k := by rw [OffAir, hc, Option.bind_some, Claim.onAirStamp, hstate]

theorem takeReady_present (h : s.crosspoint.presence.get c.channel = .present) : takeReady k c s = enterOnAir k s := if_pos h

/-- The claim in slot `k` with another channel. -/
def channelSet (k channel : Nat) (s : State) : State := s.onArbiter (Arbiter.onClaim k fun c => { c with channel := channel })

theorem channelSet_claims (k channel j : Nat) (s : State) : (channelSet k channel s).arbiter.claims.get j =
    if k = j then (s.arbiter.claims.get j).map (fun c => { c with channel := channel }) else s.arbiter.claims.get j :=
  onClaim_claims _ s.arbiter k j

/-- The channel a DEFAULT answer gives a claim of this level (R15, R92). -/
def defaultChannel (s : State) (c : Claim) : Nat := s.tables.fields.defaults.get (defaultIndex c.level)

theorem channelHeldBeside_iff {channel : Nat} : channelHeldBeside s k channel = true ↔
    ∃ j < 16, j ≠ k ∧ ∃ d, s.arbiter.claims.get j = some d ∧ d.channel = channel := by
  unfold channelHeldBeside
  rw [List.any_eq_true]
  refine exists_congr fun j => ?_
  rw [List.mem_range]
  refine and_congr_right fun _ => ?_
  rcases s.arbiter.claims.get j with _ | d <;> simp

theorem takeDefault_free (hs : Sound s (defaultRef (defaultIndex c.level)))
    (hfree : ¬∃ j < 16, j ≠ k ∧ ∃ d, s.arbiter.claims.get j = some d ∧ d.channel = defaultChannel s c) :
    takeDefault k c s = enterOnAir k (channelSet k (defaultChannel s c) s) := by
  unfold takeDefault
  rw [useEntry_sound hs]
  exact if_neg (mt channelHeldBeside_iff.mp hfree)

theorem takeDefault_busy (hs : Sound s (defaultRef (defaultIndex c.level)))
    (hheld : ∃ j < 16, j ≠ k ∧ ∃ d, s.arbiter.claims.get j = some d ∧ d.channel = defaultChannel s c) :
    takeDefault k c s = dropClaims .channelBusy [k] s := by
  unfold takeDefault
  rw [useEntry_sound hs]
  exact if_pos (channelHeldBeside_iff.mpr hheld)

theorem useEntry_faultUnit {r : EntryRef} (h : ¬Sound s r) :
    (useEntry r s).1.faultUnit = s.faultUnit.add (.tableCorrupt r) s.timer.seconds := by
  rcases hm : s.marked r
  · have hfails : s.passes r = false := Bool.eq_false_iff.mpr fun hp => h ⟨hm, hp⟩
    rw [useEntry_of_failing hm hfails]
    rfl
  · rw [useEntry_of_marked hm]
    rfl

theorem takeDefault_refused (hs : ¬Sound s (defaultRef (defaultIndex c.level))) :
    takeDefault k c s = dropClaims .table [k] (useEntry (defaultRef (defaultIndex c.level)) s).1 := by
  have hpair : useEntry (defaultRef (defaultIndex c.level)) s = ((useEntry (defaultRef (defaultIndex c.level)) s).1, false) :=
    Prod.ext rfl (useEntry_unsound hs)
  unfold takeDefault
  rw [hpair]

/-! ### A claim dropped while the Zone Records are sound (R97) -/

theorem decideHolder_tables (z : Nat) (s : State) :
    (decideHolder z s).tables = s.tables ∧ (decideHolder z s).faultUnit = s.faultUnit :=
  ⟨(decideHolder_quiet z s).tables, (decideHolder_quiet z s).faultUnit⟩

/-- Where every Zone Record is sound the holder choices leave the tables and the Fault Unit. -/
theorem chooseHolders_soundZones (h : ∀ z, Sound s (zoneRef z)) (zs : List Nat) :
    (chooseHolders zs s).tables = s.tables ∧ (chooseHolders zs s).faultUnit = s.faultUnit := by
  induction zs generalizing s with
  | nil => exact ⟨rfl, rfl⟩
  | cons z zs ih =>
    have hchosen : chooseHolder z s = decideHolder z s := by rw [chooseHolder_eq, touchZone_sound (h z), ite_self]
    obtain ⟨htables, hunit⟩ := decideHolder_tables z s
    have hnext : ∀ y, Sound (decideHolder z s) (zoneRef y) := fun y => by
      unfold Sound State.marked State.passes
      rw [htables]
      exact h y
    obtain ⟨htables', hunit'⟩ := ih hnext
    have hwalk : chooseHolders (z :: zs) s = chooseHolders zs (decideHolder z s) := by rw [← hchosen]; rfl
    rw [hwalk]
    exact ⟨htables'.trans htables, hunit'.trans hunit⟩

theorem slotOnAir_offAir (hoff : OffAir s k) : s.slotOnAir k = false := by
  unfold State.slotOnAir
  split
  · next c n hc =>
    rw [OffAir, hc] at hoff
    cases hoff
  · rfl

theorem dropClaims_soundZones {reason : DropReason} (h : ∀ z, Sound s (zoneRef z)) (hc : s.arbiter.claims.get k = some c)
    (hoff : OffAir s k) : (dropClaims reason [k] s).faultUnit = s.faultUnit.take (.claimDropped k c.station reason) := by
  have hslot : [k].any (s.onFaultUnit (dropNotices reason [k] s)).slotOnAir = false := by
    simpa using slotOnAir_offAir (s := s.onFaultUnit (dropNotices reason [k] s)) hoff
  rw [dropClaims_eq, freeSlots_eq, hslot]
  refine (chooseHolders_soundZones (fun z => ?_) _).2.trans (dropNotices_single hc _)
  exact h z

/-! ### The answers -/

/-- What the identity of a claim holds. -/
theorem Claim.identity_fields {d : Claim} (h : d.identity = c.identity) : d.channel = c.channel ∧ d.station = c.station ∧
    d.level = c.level ∧ d.selection = c.selection ∧ d.waitCount = c.waitCount ∧ d.arrival = c.arrival := by
  cases c
  cases d
  simp only [Claim.identity, Claim.mk.injEq] at h ⊢
  simp [h]

theorem WentOnAir.fields (h : WentOnAir slot c s t) : ∃ d, t.arbiter.claims.get slot = some d ∧
    d.state = .onAir t.arbiter.onAirCounter ∧ d.channel = c.channel ∧ d.station = c.station ∧ d.level = c.level ∧
    d.selection = c.selection ∧ d.waitCount = c.waitCount ∧ d.arrival = c.arrival := by
  obtain ⟨d, hd, hstate, hidentity⟩ := h.claim
  exact ⟨d, hd, hstate, Claim.identity_fields hidentity⟩

/-- What a stamp given depends on: the stamps held and the counter. -/
theorem StampGiven.of_stamps (h : StampGiven slot t u)
    (hstamp : ∀ j, (t.arbiter.claims.get j).bind Claim.onAirStamp = (s.arbiter.claims.get j).bind Claim.onAirStamp)
    (honAir : t.arbiter.onAirCounter = s.arbiter.onAirCounter) : StampGiven slot s u := by
  have hplace (n : Nat) : t.arbiter.placeOf Claim.onAirStamp n = s.arbiter.placeOf Claim.onAirStamp n := by
    unfold Arbiter.placeOf
    simp only [hstamp]
  have hcount : t.arbiter.countOf Claim.onAirStamp = s.arbiter.countOf Claim.onAirStamp := by
    unfold Arbiter.countOf
    simp only [hstamp]
  have hafter : t.arbiter.stampAfter Claim.onAirStamp t.arbiter.onAirCounter =
      s.arbiter.stampAfter Claim.onAirStamp s.arbiter.onAirCounter := by
    funext n
    unfold Arbiter.stampAfter
    rw [honAir, hplace]
  have hnext (a : Arbiter) (j : Nat) : (a.nextOnAir.claims.get j).bind Claim.onAirStamp =
      ((a.claims.get j).bind Claim.onAirStamp).map (a.stampAfter Claim.onAirStamp a.onAirCounter) := by
    rw [nextOnAir_claims]
    rcases a.claims.get j with _ | c
    · rfl
    · exact withStampAfter_onAirStamp c
  refine ⟨h.counter.trans ?_, fun j hj hne => (h.others j hj hne).trans ?_⟩
  · rw [nextOnAir_counter, nextOnAir_counter, Arbiter.counterBefore, Arbiter.counterBefore, honAir, hcount]
  · rw [hnext, hnext, hstamp, hafter]

theorem channelSet_stamps (hc : s.arbiter.claims.get slot = some c) (channel j : Nat) :
    ((channelSet slot channel s).arbiter.claims.get j).bind Claim.onAirStamp =
      (s.arbiter.claims.get j).bind Claim.onAirStamp := by
  rw [channelSet_claims]
  by_cases hj : slot = j
  · subst hj
    rw [if_pos rfl, hc]
    rfl
  · rw [if_neg hj]

section

variable {timer : Nat} (hc : s.arbiter.claims.get slot = some c) (hstate : c.state = .confirming number timer)

include hc hstate

/-- The PENDING claims are in other slots than the one whose claim is CONFIRMING. -/
theorem confirming_not_pending : ∀ d, s.arbiter.claims.get slot = some d → d.state ≠ .pending := fun d hd hpending => by
  rw [← Option.some.inj (hc.symm.trans hd), hstate] at hpending
  cases hpending

theorem channelSet_pendingKept (channel : Nat) : PendingKept s (channelSet slot channel s) := by
  have hstays {j : Nat} {d : Claim} (hd : s.arbiter.claims.get j = some d) (hpending : d.state = .pending) :
      (channelSet slot channel s).arbiter.claims.get j = some d := by
    have hne : slot ≠ j := fun hj => confirming_not_pending hc hstate d (hj ▸ hd) hpending
    rw [channelSet_claims, if_neg hne, hd]
  refine ⟨fun j _ d hd hpending => ⟨d, hstays hd hpending, rfl⟩, fun i _ j _ d e hd he hdp hep hlt => ?_, rfl⟩
  rwa [arrivalAt_of (hstays hd hdp), arrivalAt_of (hstays he hep)]

end

/-- Settles O43. -/
theorem answersThatPutOnAir : Obligations.AnswersThatPutOnAir := by
  intro station slot number timer c s hc hstate hstation onAir dropped index channel held
  have hoff := offAir_of_confirming hc hstate
  have hanswered := answeredClaim_eq_some hc hstate hstation
  have hready := answer_of_some takeReady hanswered
  have hdefault := answer_of_some takeDefault hanswered
  have hbesideDefault : Beside s (takeDefault slot c s) := (takeDefault_worked slot c s).toBeside
  refine ⟨fun hpresent => ?ready, fun hs hfree => ?default, fun hs hheld => ?busy, fun hs => ?refused⟩
  case ready =>
    rw [takeReady_present hpresent] at hready
    obtain ⟨d, hd, hdstate, hchannel, hdstation, hlevel, hselection, hwaits, harrival⟩ := (wentOnAir hc).fields
    refine ⟨enterOnAir slot s, congrArg settled hready, (enterOnAir_worked slot s).toBeside, d, hd, hdstate, hchannel,
      hdstation.trans hstation, hlevel, hselection, hwaits, harrival, (wentOnAir hc).given, fun hs ⟨z, hz, hselects⟩ => ?_⟩
    exact .enterOnAir hs hc (.refl s) (confirming_not_pending hc hstate) hz hselects
  case default =>
    have htaken := takeDefault_free (k := slot) (c := c) hs hfree
    rw [htaken] at hdefault hbesideDefault
    have hset : (channelSet slot channel s).arbiter.claims.get slot = some { c with channel := channel } := by
      rw [channelSet_claims, if_pos rfl, hc]
      rfl
    obtain ⟨d, hd, hdstate, hchannel, hdstation, hlevel, hselection, hwaits, harrival⟩ := (wentOnAir hset).fields
    refine ⟨_, congrArg settled hdefault, hbesideDefault, d, hd, hdstate, hchannel, hdstation.trans hstation, hlevel,
      hselection, hwaits, harrival, (wentOnAir hset).given.of_stamps (channelSet_stamps hc channel) rfl,
      fun hs ⟨z, hz, hselects⟩ => ?_⟩
    exact .enterOnAir (by exact hs) hset (channelSet_pendingKept hc hstate channel) (confirming_not_pending hc hstate) hz hselects
  case busy =>
    rw [takeDefault_busy (k := slot) (c := c) hs hheld] at hdefault
    have hdropped := dropClaims_single (reason := .channelBusy) hc
    exact ⟨_, congrArg settled hdefault, hdropped.1, hdropped.2.1, fun hs => hstation ▸ hdropped.2.2 hs⟩
  case refused =>
    have hrefused := takeDefault_refused (k := slot) (c := c) hs
    have hclaims : (useEntry (defaultRef index) s).1.arbiter.claims.get slot = some c := by rw [useEntry_arbiter, hc]
    rw [hrefused] at hdefault hbesideDefault
    have hdropped := dropClaims_single (reason := .table) hclaims
    refine ⟨_, congrArg settled hdefault, hbesideDefault, hdropped.2.1,
      hdropped.1.marks _ (useEntry_refused (useEntry_unsound hs)), fun hothers => ?_⟩
    have hbeside : Beside s (useEntry (defaultRef index) s).1 := (useEntry_worked _ s).toBeside
    have hzones : ∀ z, Sound (useEntry (defaultRef index) s).1 (zoneRef z) := fun z =>
      (hbeside.sound (zoneRef z)).mpr (hothers _ nofun)
    have hoff' : OffAir (useEntry (defaultRef index) s).1 slot := by rwa [OffAir, useEntry_arbiter]
    refine (dropClaims_soundZones hzones hclaims hoff').trans ?_
    rw [useEntry_faultUnit hs, hstation]

end Sys2Proof.Machine
end

section
/-! SUPPORT. The would-win test of one claim, also where readings mark records (R86 to R88), and accepted claims (R84 to R86). -/

namespace Sys2Proof.Machine

variable {s t u : State} {z k j : Nat} {ks zs : List Nat} {c d : Claim}

/-! ### Zone Records that no further use marks (R6) -/

/-- A use of the record of zone `z` marks nothing. -/
def Settled (s : State) (z : Nat) : Prop := Sound s (zoneRef z) ∨ s.marked (zoneRef z) = true

theorem Settled.beside (h : Settled s z) (hb : Beside s t) : Settled t z :=
  h.imp (hb.sound (zoneRef z)).mpr (hb.marks (zoneRef z))

theorem settled_touchZone (z : Nat) (s : State) : Settled (touchZone z s).1 z := by
  by_cases hs : Sound s (zoneRef z)
  · rw [touchZone_sound hs]
    exact .inl hs
  · refine .inr ?_
    rcases hm : s.marked (zoneRef z)
    · rw [touchZone_of_newlyMarked ⟨hs, hm⟩]
      exact (zoneMarked_worked _ _).toBeside.marks _ (marked_setMark_self s _)
    · exact (touchZone_worked z s).toBeside.marks _ hm

theorem settled_touchZones (hz : z ∈ zs) (s : State) : Settled (touchZones zs s).1 z := by
  induction zs generalizing s with
  | nil => cases hz
  | cons y zs ih =>
    rw [(touchZones_cons y zs s).1]
    rcases List.mem_cons.mp hz with rfl | hz
    · exact (settled_touchZone z s).beside (touchZones_worked zs _).toBeside
    · exact ih hz _

/-- The marking, the mask and the trim of a settled zone stay through uses. -/
theorem UsesOf.settled (h : UsesOf s t) (hb : Beside s t) (hz : z < 128) (hs : Settled s z) :
    t.marked (zoneRef z) = s.marked (zoneRef z) ∧ t.arbiter.masks.get z = s.arbiter.masks.get z := by
  rcases h.zone z hz with ⟨hm, hmask, -⟩ | ⟨hold, hnew, -⟩
  · exact ⟨hm, hmask⟩
  · exfalso
    rcases hs with hsound | hmarked
    · rcases hb.marksOnly _ hnew with hm | hp
      · exact Bool.noConfusion (hold.symm.trans hm)
      · exact Bool.noConfusion (hp.symm.trans hsound.2)
    · exact Bool.noConfusion (hold.symm.trans hmarked)

/-! ### The work between two moments of a test -/

/-- Uses, choices and tests lead from `s` to `t`. -/
structure TestWork (s t : State) : Prop where
  uses : UsesOf s t
  worked : Worked s t
  claims : Rearranged s t
  stamps : StampsStay s t

namespace TestWork

theorem refl (s : State) : TestWork s s := ⟨.refl s, .refl s, .refl s, .refl s⟩

theorem trans (h : TestWork s t) (g : TestWork t u) : TestWork s u :=
  ⟨h.uses.trans g.uses, h.worked.trans g.worked, h.claims.trans g.claims, h.stamps.trans g.stamps⟩

theorem touchZones (hzs : ∀ z ∈ zs, z < 128) (s : State) : TestWork s (touchZones zs s).1 :=
  ⟨.touchZones hzs s, touchZones_worked zs s, .touchZones zs s, .touchZones zs s⟩

theorem chooseHolders (hzs : ∀ z ∈ zs, z < 128) (s : State) : TestWork s (chooseHolders zs s) :=
  ⟨.chooseHolders hzs s, chooseHolders_worked zs s, .chooseHolders zs s, .chooseHolders zs s⟩

theorem confirmWinners (ks : List Nat) (s : State) : TestWork s (confirmWinners ks s) :=
  ⟨.confirmWinners ks s, confirmWinners_worked ks s, .confirmWinners ks s, .confirmWinners ks s⟩

theorem air (h : TestWork s t) (k : Nat) :
    (t.arbiter.claims.get k).bind Claim.air = (s.arbiter.claims.get k).bind Claim.air := by
  have hidentity := h.claims.claims k
  have hstamp := h.stamps.stamp k
  rcases hs : s.arbiter.claims.get k with _ | c <;> rcases ht : t.arbiter.claims.get k with _ | d <;>
    rw [hs, ht] at hidentity hstamp
  · cases hidentity
  · cases hidentity
  · obtain ⟨-, -, hlevel, hselection, -⟩ := Claim.identity_fields (Option.some.inj hidentity)
    have hstamp : d.onAirStamp = c.onAirStamp := hstamp
    simp only [Option.bind_some, Claim.air, hstamp, hlevel, hselection]

/-- What the winner of a settled zone is read from is not touched. -/
theorem sameCandidates (h : TestWork s t) (hz : z < 128) (hs : Settled s z) : SameCandidates z s t := by
  obtain ⟨hmarked, hmask⟩ := h.uses.settled h.worked.toBeside hz hs
  refine ⟨?_, hmask, by rw [h.claims.planClaims], fun k _ => h.air k⟩
  unfold groupOf
  rw [hmarked, h.worked.fields]

end TestWork

/-- The zones that decide whether a claim passes the test. -/
def Concerns (s : State) (c : Claim) (z : Nat) : Prop := c.selection.isGroups = true ∨ selects s c.selection z = true

theorem selects_span {sel : Selection} (h : sel.isGroups ≠ true) (s t : State) (z : Nat) : selects t sel z = selects s sel z := by
  cases sel with
  | span first count => rfl
  | groups set => exact absurd rfl h

theorem wins_of_concerns (h : ∀ z < 128, Concerns s c z → SameCandidates z s t) : Wins t c ↔ Wins s c := by
  unfold Wins
  refine exists_congr fun z => and_congr_right fun hz => ?_
  by_cases hconcerns : Concerns s c z
  · rw [(h z hz hconcerns).winner, (h z hz hconcerns).mask, selects_congr (h z hz hconcerns).group]
  · obtain ⟨hspan, hnot⟩ := not_or.mp hconcerns
    simp only [selects_span hspan s t z, hnot, Bool.false_eq_true, false_and]

/-! ### One claim tested -/

theorem counted_fields (h : d = { c with zonesHeld := d.zonesHeld }) :
    d.level = c.level ∧ d.selection = c.selection ∧ d.state = c.state := by
  rw [h]
  exact ⟨rfl, rfl, rfl⟩

theorem wins_uncounted (hlevel : d.level = c.level) (hselection : d.selection = c.selection) : Wins s d ↔ Wins s c :=
  wins_congr (fun _ _ => ⟨rfl, rfl, rfl, fun _ _ => rfl⟩) hlevel hselection

theorem confirmWinners_one (k : Nat) (s : State) :
    confirmWinners [k] s = if wouldWin s k then enterConfirming k s else s := rfl

theorem enterConfirming_ne (h : j ≠ k) (s : State) : (enterConfirming j s).arbiter.claims.get k = s.arbiter.claims.get k := by
  rcases hc : s.arbiter.claims.get j with _ | c
  · unfold enterConfirming
    rw [hc]
  · rw [enterConfirming_of hc]
    dsimp only
    rw [headerUsed_arbiter]
    exact Tab.get_set_ne _ _ h

/-- A claim that does not pass the test is left as it is. -/
theorem confirmWinners_loser (h : wouldWin s k = false) (ks : List Nat) :
    (confirmWinners ks s).arbiter.claims.get k = s.arbiter.claims.get k := by
  suffices hwalk : ∀ t, (ks.foldl (fun t j => if wouldWin s j then enterConfirming j t else t) t).arbiter.claims.get k =
      t.arbiter.claims.get k from hwalk s
  induction ks with
  | nil => exact fun t => rfl
  | cons j ks ih =>
    intro t
    rw [List.foldl_cons, ih]
    split
    · next hj => exact enterConfirming_ne (fun hjk => by rw [hjk, h] at hj; cases hj) t
    · rfl

theorem enterConfirming_claim (h : s.arbiter.claims.get k = some c) :
    (enterConfirming k s).arbiter.claims.get k = some (c.asked s ((s.arbiter.confirmCounter + 1) % 256)) ∧
      (enterConfirming k s).arbiter.confirmCounter = (s.arbiter.confirmCounter + 1) % 256 := by
  rw [enterConfirming_of h]
  dsimp only
  rw [headerUsed_arbiter]
  exact ⟨Tab.get_set_self _ _ (slot_lt h), rfl⟩

/-- The use of the header by a test leaves what the winners are read from. -/
theorem enterConfirming_sameCandidates (hoff : OffAir s k) (z : Nat) : SameCandidates z s (enterConfirming k s) := by
  have hclaims := Rearranged.enterConfirming k s
  have hwork : ∀ j, ((enterConfirming k s).arbiter.claims.get j).bind Claim.air = (s.arbiter.claims.get j).bind Claim.air := by
    intro j
    rcases hc : s.arbiter.claims.get k with _ | c
    · unfold enterConfirming
      rw [hc]
    · by_cases hj : k = j
      · subst hj
        rw [(enterConfirming_claim hc).1, hc, Option.bind_some, Option.bind_some, Claim.air_asked]
        rw [OffAir, hc, Option.bind_some] at hoff
        rw [Claim.air, hoff]
        rfl
      · rw [enterConfirming_ne hj]
  have hmarked : (enterConfirming k s).marked (zoneRef z) = s.marked (zoneRef z) := by
    unfold enterConfirming
    split
    · rfl
    · rw [readTiming_value]
      exact useEntry_marked headerRef (zoneRef z) s nofun
  have hmasks : (enterConfirming k s).arbiter.masks = s.arbiter.masks := by
    unfold enterConfirming
    split
    · rfl
    · rw [readTiming_value]
      show (headerUsed s).arbiter.masks = s.arbiter.masks
      rw [headerUsed_arbiter]
  refine ⟨?_, by rw [hmasks], by rw [hclaims.planClaims], fun j _ => hwork j⟩
  unfold groupOf
  rw [hmarked, (enterConfirming_worked k s).fields]

/-- What the test of the PENDING claim in slot `k`, against the candidates of `t`, has made of its state (R88, R89). -/
def TestedAlone (k : Nat) (c : Claim) (s t : State) : Prop :=
  (Wins t c → (t.arbiter.claims.get k).map Claim.state =
    some (.confirming ((s.arbiter.confirmCounter + 1) % 256) (16 * headerValue Header.confirmTimeout s))) ∧
  (¬Wins t c → (t.arbiter.claims.get k).map Claim.state = some .pending)

theorem wouldWin_of_pending (hc : s.arbiter.claims.get k = some c) (hpending : c.state = .pending) :
    wouldWin s k = true ↔ Wins s c := by
  rw [wouldWin_iff]
  refine ⟨fun ⟨d, hd, _, hw⟩ => ?_, fun hw => ⟨c, hc, hpending, hw⟩⟩
  rwa [Option.some.inj (hc.symm.trans hd)]

theorem touchZones_arbiter (zs : List Nat) (s : State) :
    (touchZones zs s).1.arbiter = { s.arbiter with masks := (touchZones zs s).1.arbiter.masks } := by
  induction zs generalizing s with
  | nil => rfl
  | cons z zs ih =>
    rw [(touchZones_cons z zs s).1]
    have htouched := touchZone_arbiter z s
    generalize (touchZone z s).1 = t at htouched ⊢
    have hrest := ih t
    rw [htouched] at hrest
    exact hrest

theorem giveHolder_confirmCounter (z : Nat) (h : Holder) (level : Nat) (s : State) :
    (giveHolder z h level s).arbiter.confirmCounter = s.arbiter.confirmCounter := by
  rw [(giveHolder_given z h level s).rest]

theorem chooseHolder_confirmCounter (z : Nat) (s : State) :
    (chooseHolder z s).arbiter.confirmCounter = s.arbiter.confirmCounter := by
  have hdecided (t : State) : (decideHolder z t).arbiter.confirmCounter = t.arbiter.confirmCounter :=
    decideHolder_cases (P := fun u => u.arbiter.confirmCounter = t.arbiter.confirmCounter)
      (fun h level _ => giveHolder_confirmCounter z h level t) fun h level _ => giveHolder_confirmCounter z h level _
  rw [chooseHolder_eq, hdecided]
  split
  · rw [touchZone_arbiter]
  · rfl

theorem chooseHolders_confirmCounter (zs : List Nat) (s : State) :
    (chooseHolders zs s).arbiter.confirmCounter = s.arbiter.confirmCounter := by
  induction zs generalizing s with
  | nil => rfl
  | cons z zs ih => exact (ih (chooseHolder z s)).trans (chooseHolder_confirmCounter z s)

/-- The test of one claim, no reading of which marks a record. -/
theorem testedAlone_confirm (hc : s.arbiter.claims.get k = some c) (hpending : c.state = .pending) :
    TestedAlone k c s (confirmWinners [k] s) := by
  have hoff : OffAir s k := by rw [OffAir, hc, Option.bind_some, Claim.onAirStamp, hpending]
  rw [confirmWinners_one]
  by_cases hwin : Wins s c
  · rw [if_pos ((wouldWin_of_pending hc hpending).mpr hwin)]
    have hsame : Wins (enterConfirming k s) c ↔ Wins s c :=
      wins_congr (fun z _ => enterConfirming_sameCandidates hoff z) rfl rfl
    exact ⟨fun _ => by rw [(enterConfirming_claim hc).1]; rfl, fun hlost => absurd (hsame.mpr hwin) hlost⟩
  · rw [if_neg (mt (wouldWin_of_pending hc hpending).mp hwin)]
    exact ⟨fun hwins => absurd hwins hwin, fun _ => by rw [hc, ← hpending]; rfl⟩

/-- What the test reads: every zone that concerns the claim, or none at all. -/
theorem mem_testReads (hc : s.arbiter.claims.get k = some c) (h : testReads s [k] ≠ []) (hz : z < 128) (hconcerns : Concerns s c z) :
    z ∈ testReads s [k] := by
  obtain ⟨y, hy⟩ := List.exists_mem_of_ne_nil _ h
  have hread (x : Nat) : x ∈ testReads s [k] ↔
      x < 128 ∧ (c.selection.isGroups = true ∨ (s.groupsOnAir = true ∧ selects s c.selection x = true)) := by
    unfold testReads
    rw [mem_indices]
    simp [hc]
  rw [hread] at hy ⊢
  refine ⟨hz, ?_⟩
  rcases hconcerns with hgroups | hselects
  · exact .inl hgroups
  · exact hy.2.imp_right fun ⟨honAir, _⟩ => ⟨honAir, hselects⟩

/-- The outcome of the test of a claim stays through work that leaves the zones it concerns and its state. -/
theorem TestedAlone.congr (h : TestedAlone k c s t) (hwins : Wins u c ↔ Wins t c)
    (hstate : (u.arbiter.claims.get k).map Claim.state = (t.arbiter.claims.get k).map Claim.state) : TestedAlone k c s u :=
  ⟨fun hw => hstate.trans (h.1 (hwins.mp hw)), fun hl => hstate.trans (h.2 (mt hwins.mpr hl))⟩

theorem TestedAlone.of_start (h : TestedAlone k c t u) (hcounter : t.arbiter.confirmCounter = s.arbiter.confirmCounter)
    (htimeout : headerValue Header.confirmTimeout t = headerValue Header.confirmTimeout s) : TestedAlone k c s u := by
  unfold TestedAlone at *
  rwa [hcounter, htimeout] at h

/-- The claim in slot `k` does not change its state in a test of the PENDING claims that it fails, or is not part of. -/
theorem confirmWinners_keeps (hd : s.arbiter.claims.get k = some d) (h : d.state = .pending → ¬Wins s d) (ks : List Nat) :
    (confirmWinners ks s).arbiter.claims.get k = s.arbiter.claims.get k := by
  refine confirmWinners_loser (Bool.eq_false_iff.mpr fun hwin => ?_) ks
  obtain ⟨e, he, hpending, hw⟩ := wouldWin_iff.mp hwin
  obtain rfl := Option.some.inj (hd.symm.trans he)
  exact h hpending hw

theorem wouldWinTest_unmarked {r : State} (h : touchZones (testReads s ks) s = (r, [])) : wouldWinTest ks s = confirmWinners ks r := by
  unfold wouldWinTest
  rw [h]

/-- A test that has marked records goes on with a test of every PENDING claim (R7, R88). -/
theorem wouldWinTest_marked {r : State} {fresh : List Nat} (h : touchZones (testReads s ks) s = (r, fresh)) (hne : fresh ≠ []) :
    wouldWinTest ks s =
      let u := confirmWinners ks (chooseHolders fresh r)
      let read := touchZones (testReads u (pendingSlots u)) u
      confirmWinners (pendingSlots (chooseHolders read.2 read.1)) (chooseHolders read.2 read.1) := by
  obtain ⟨z, fresh, rfl⟩ := List.exists_cons_of_ne_nil hne
  unfold wouldWinTest
  rw [h]

/-- The rest of a test that has marked records: the claim tested first keeps its outcome, since the zones it concerns have all
been read. -/
theorem TestedAlone.rest (h : TestedAlone k d t u) (hd : t.arbiter.claims.get k = some d) (htu : TestWork t u)
    (hsettled : ∀ z < 128, Concerns u d z → Settled u z) (zs again : List Nat) (hzs : ∀ z ∈ zs, z < 128)
    (hagain : ∀ z ∈ again, z < 128) :
    let w := chooseHolders again (touchZones zs u).1
    TestedAlone k d t (confirmWinners (pendingSlots w) w) := by
  intro w
  have huw : TestWork u w := (TestWork.touchZones hzs u).trans (.chooseHolders hagain _)
  have hstay : ClaimsStay u w := (ClaimsStay.touchZones zs u).trans (.chooseHolders again _)
  have hwins {v : State} (hv : TestWork u v) : Wins v d ↔ Wins u d :=
    wins_of_concerns fun z hz hc => hv.sameCandidates hz (hsettled z hz hc)
  have hidentity := htu.claims.claims k
  rw [hd] at hidentity
  obtain ⟨e, he, hed⟩ := Option.map_eq_some_iff.mp hidentity
  obtain ⟨f, hf, hfe⟩ := hstay.claim he
  obtain ⟨hlevel, hselection, hstate⟩ := counted_fields hfe
  obtain ⟨-, -, hlevel', hselection', -⟩ := Claim.identity_fields hed
  have hkept : (confirmWinners (pendingSlots w) w).arbiter.claims.get k = w.arbiter.claims.get k := by
    refine confirmWinners_keeps hf (fun hpending hw => ?_) _
    have hloses : ¬Wins u d := fun hwin => by
      have hconfirming := h.1 hwin
      rw [he, Option.map_some, ← hstate, hpending] at hconfirming
      cases hconfirming
    exact hloses ((hwins huw).mp ((wins_uncounted (hlevel.trans hlevel') (hselection.trans hselection')).mp hw))
  refine h.congr (hwins (huw.trans (.confirmWinners _ w))) ?_
  rw [hkept]
  exact hstay.map_eq (fun _ => rfl) k

/-- The would-win test of one PENDING claim: its outcome is what the candidates say at the end, also where the readings mark
records. -/
theorem testedAlone_wouldWinTest (hc : s.arbiter.claims.get k = some c) (hpending : c.state = .pending) :
    TestedAlone k c s (wouldWinTest [k] s) := by
  have hfirst := TestWork.touchZones (zs := testReads s [k]) indices_lt s
  have hfresh := touchZones_subset (testReads s [k]) s
  have harbiter := touchZones_arbiter (testReads s [k]) s
  have hsettled (z : Nat) (hz : z ∈ testReads s [k]) := settled_touchZones hz s
  rcases hr : touchZones (testReads s [k]) s with ⟨r, fresh⟩
  by_cases hne : fresh = []
  · subst hne
    rw [wouldWinTest_unmarked hr]
    rw [hr] at harbiter hfirst
    have hcr : r.arbiter.claims.get k = some c := by rw [harbiter, hc]
    exact (testedAlone_confirm hcr hpending).of_start (by rw [harbiter]) (hfirst.worked.toBeside.headerValue _)
  · rw [wouldWinTest_marked hr hne]
    rw [hr] at harbiter hfirst hfresh hsettled
    have hreads : testReads s [k] ≠ [] := fun hnil => hne (List.subset_nil.mp (hnil ▸ hfresh))
    have hx := TestWork.chooseHolders (fun z hz => indices_lt z (hfresh hz)) r
    obtain ⟨d, hd, hdc⟩ := (ClaimsStay.chooseHolders fresh r).claim (show r.arbiter.claims.get k = some c by rw [harbiter, hc])
    have hcounter : (chooseHolders fresh r).arbiter.confirmCounter = s.arbiter.confirmCounter := by
      rw [chooseHolders_confirmCounter, harbiter]
    generalize chooseHolders fresh r = x at hx hd hcounter ⊢
    have hsx : TestWork s x := hfirst.trans hx
    obtain ⟨hlevel, hselection, hstate⟩ := counted_fields hdc
    have hdpending : d.state = .pending := hstate.trans hpending
    have htested := testedAlone_confirm hd hdpending
    have hwork : TestWork x (confirmWinners [k] x) := .confirmWinners [k] x
    dsimp only
    generalize confirmWinners [k] x = u at htested hwork ⊢
    have hread (z : Nat) (hz : z < 128) (hconcerns : Concerns u d z) : Settled u z := by
      refine ((hsettled z (mem_testReads hc hreads hz ?_)).beside hx.worked.toBeside).beside hwork.worked.toBeside
      by_cases hgroups : c.selection.isGroups = true
      · exact .inl hgroups
      · refine .inr ?_
        have hselects := hconcerns.resolve_left (by rwa [hselection])
        rwa [hselection, selects_span hgroups s] at hselects
    have hrest := htested.rest hd hwork hread (testReads u (pendingSlots u)) (touchZones (testReads u (pendingSlots u)) u).2
      indices_lt fun z hz => indices_lt z (touchZones_subset _ _ hz)
    dsimp only at hrest
    have hstart := hrest.of_start (s := s) hcounter (hsx.worked.toBeside.headerValue _)
    generalize confirmWinners _ _ = v at hstart ⊢
    have hsame : Wins v c ↔ Wins v d := wins_uncounted hlevel.symm hselection.symm
    exact ⟨fun hw => hstart.1 (hsame.mp hw), fun hl => hstart.2 (mt hsame.mpr hl)⟩

end Sys2Proof.Machine
end

section
/-! SUPPORT. Accepted claims (R84 to R86): stamps given, the claim placed, and what its test or its going on air leaves. -/

namespace Sys2Proof.Machine

variable {q : Sender} {s t u v : State} {k j station level channel : Nat} {field : SelectionField} {selection : Selection}
  {c : Claim}

/-! ### Stamps renumbered (R84) -/

theorem nextArrival_room {a : Arbiter} (h : a.arrivalCounter ≠ 65535) :
    a.nextArrival = { a with arrivalCounter := a.arrivalCounter + 1 } := by
  unfold Arbiter.nextArrival
  rw [if_neg h]

theorem nextOnAir_room {a : Arbiter} (h : a.onAirCounter ≠ 65535) :
    a.nextOnAir = { a with onAirCounter := a.onAirCounter + 1 } := by
  unfold Arbiter.nextOnAir
  rw [if_neg h]

theorem nextArrival_full {a : Arbiter} (h : a.arrivalCounter = 65535) :
    a.nextArrival = { a with
      claims := a.nextArrival.claims
      arrivalCounter := a.countOf (fun c => some c.arrival) + 1 } ∧
    ∀ k < 16, a.nextArrival.claims.get k = (a.claims.get k).map fun c =>
      { c with arrival := a.placeOf (fun c => some c.arrival) c.arrival } := by
  refine ⟨?_, fun k _ => ?_⟩
  · have heq := nextArrival_eq (a := a)
    rwa [Arbiter.counterBefore, if_pos h] at heq
  · rw [nextArrival_claims]
    refine Option.map_congr fun c _ => ?_
    rw [Claim.withArrivalAfter, Arbiter.stampAfter, if_pos h]

theorem nextOnAir_full {a : Arbiter} (h : a.onAirCounter = 65535) :
    a.nextOnAir = { a with
      claims := a.nextOnAir.claims
      onAirCounter := a.countOf Claim.onAirStamp + 1 } ∧
    ∀ k < 16, a.nextOnAir.claims.get k = (a.claims.get k).map fun c =>
      { c with state := match c.state with
        | .onAir n => .onAir (a.placeOf Claim.onAirStamp n)
        | other => other } := by
  refine ⟨?_, fun k _ => ?_⟩
  · have heq := nextOnAir_eq (a := a)
    rwa [Arbiter.counterBefore, if_pos h] at heq
  · rw [nextOnAir_claims]
    refine Option.map_congr fun c _ => ?_
    obtain ⟨station, channel, level, selection, state, arrival, waitCount, zonesHeld⟩ := c
    cases state with
    | onAir n => simp [Claim.withStampAfter, Arbiter.stampAfter, h]
    | _ => rfl

/-! ### The claim placed (R86) -/

theorem freeSlot_eq_some (hk : k < 16) (hfree : s.arbiter.claims.get k = none) (hheld : ∀ j < k, s.arbiter.claims.get j ≠ none) :
    freeSlot s = some k := by
  refine List.find?_range_eq_some.mpr ⟨by rw [hfree]; rfl, List.mem_range.mpr hk, fun j hj => ?_⟩
  obtain ⟨c, hc⟩ := Option.ne_none_iff_exists'.mp (hheld j hj)
  rw [hc]
  rfl

section

variable (hk : k < 16) (hfree : s.arbiter.claims.get k = none)

include hk hfree

theorem placeClaim_stamps (j : Nat) :
    ((placeClaim k station level channel selection s).arbiter.claims.get j).bind Claim.onAirStamp =
      (s.arbiter.claims.get j).bind Claim.onAirStamp := by
  rw [placeClaim_claims hk]
  split
  case isTrue hkj =>
    rw [← hkj, hfree]
    rfl
  case isFalse => rcases s.arbiter.claims.get j with _ | c <;> rfl

theorem placeClaim_sameCandidates (z : Nat) : SameCandidates z s (placeClaim k station level channel selection s) := by
  have hair (j : Nat) : ((placeClaim k station level channel selection s).arbiter.claims.get j).bind Claim.air =
      (s.arbiter.claims.get j).bind Claim.air := by
    rw [placeClaim_claims hk]
    split
    case isTrue hkj =>
      rw [← hkj, hfree]
      rfl
    case isFalse => rcases s.arbiter.claims.get j with _ | c <;> rfl
  rw [placeClaim_eq] at hair ⊢
  exact ⟨rfl, rfl, rfl, fun j _ => hair j⟩

/-- A claim placed in a free slot keeps the PENDING claims and the order of their stamps. -/
theorem placeClaim_pendingKept : PendingKept s (placeClaim k station level channel selection s) := by
  have hstays {j : Nat} {d : Claim} (hd : s.arbiter.claims.get j = some d) :
      (placeClaim k station level channel selection s).arbiter.claims.get j = some (d.withArrivalAfter s.arbiter) := by
    have hne : k ≠ j := fun hkj => by rw [← hkj, hfree] at hd; cases hd
    rw [placeClaim_claims hk, if_neg hne, hd]
    rfl
  refine ⟨fun j _ d hd _ => ⟨_, hstays hd, rfl⟩, fun i _ j _ c d hc hd _ _ hlt => ?_, by rw [placeClaim_eq]; rfl⟩
  rw [arrivalAt_of (hstays hc), arrivalAt_of (hstays hd)]
  exact (stampAfter_lt_iff (holdsStamp_arrival hc) (holdsStamp_arrival hd)).mpr hlt

end

theorem placeClaim_worked (k station level channel : Nat) (selection : Selection) (s : State) :
    Worked s (placeClaim k station level channel selection s) := .onArbiter s _

theorem acceptClaim_worked (k station level channel : Nat) (selection : Selection) (s : State) :
    Worked s (acceptClaim k station level channel selection s) := by
  unfold acceptClaim
  split
  · exact (placeClaim_worked ..).trans (enterOnAir_worked k _)
  · exact (placeClaim_worked ..).trans (wouldWinTest_worked [k] _)

/-! ### A claim accepted (R85, R86) -/

theorem claimedSelection_of (hchannel : channel ≤ 31) (h : selectionOf field = some selection) :
    claimedSelection channel field = some selection := (if_neg (by omega)).trans h

/-- The state of an accepted claim, and the stamps, by the level claimed. -/
structure Accepted (k station level channel : Nat) (selection : Selection) (s v : State) : Prop where
  claim : ∃ c, v.arbiter.claims.get k = some c ∧ c.channel = channel ∧ c.station = station ∧ c.level = level ∧
    c.selection = selection ∧ c.waitCount = 0 ∧ c.arrival = v.arbiter.arrivalCounter
  others : ∀ j, j ≠ k → (v.arbiter.claims.get j).map Claim.identity = (s.arbiter.nextArrival.claims.get j).map Claim.identity
  counter : v.arbiter.arrivalCounter = s.arbiter.nextArrival.arrivalCounter

theorem Accepted.of_placed (hk : k < 16) {c : Claim} (hplaced : c.identity =
      newClaim station channel level selection s.arbiter.nextArrival.arrivalCounter)
    (hc : v.arbiter.claims.get k = some c)
    (hothers : ∀ j, j ≠ k → (v.arbiter.claims.get j).map Claim.identity =
      ((placeClaim k station level channel selection s).arbiter.claims.get j).map Claim.identity)
    (hcounter : v.arbiter.arrivalCounter = (placeClaim k station level channel selection s).arbiter.arrivalCounter) :
    Accepted k station level channel selection s v where
  claim := by
    obtain ⟨hchannel, hstation, hlevel, hselection, hwaits, harrival⟩ := Claim.identity_fields
      (c := newClaim station channel level selection s.arbiter.nextArrival.arrivalCounter) hplaced
    exact ⟨c, hc, hchannel, hstation, hlevel, hselection, hwaits, harrival.trans hcounter.symm⟩
  others j hj := by
    rw [hothers j hj, placeClaim_claims hk, if_neg (Ne.symm hj), nextArrival_claims]
  counter := hcounter

theorem placeClaim_slot (hk : k < 16) : (placeClaim k station level channel selection s).arbiter.claims.get k =
    some (newClaim station channel level selection s.arbiter.nextArrival.arrivalCounter) := by
  rw [placeClaim_claims hk, if_pos rfl]

theorem acceptClaim_seven : acceptClaim k station 7 channel selection s =
    enterOnAir k (placeClaim k station 7 channel selection s) := if_pos rfl

theorem acceptClaim_other (h : level ≠ 7) : acceptClaim k station level channel selection s =
    wouldWinTest [k] (placeClaim k station level channel selection s) := if_neg h

theorem accepted_acceptClaim (hk : k < 16) : Accepted k station level channel selection s
    (acceptClaim k station level channel selection s) := by
  by_cases hlevel : level = 7
  · subst hlevel
    rw [acceptClaim_seven]
    obtain ⟨⟨c, hc, -, hidentity⟩, -, hothers, hcounter⟩ := wentOnAir (placeClaim_slot (s := s) (station := station)
      (level := 7) (channel := channel) (selection := selection) hk)
    exact .of_placed hk hidentity hc hothers hcounter
  · rw [acceptClaim_other hlevel]
    have hclaims := Rearranged.wouldWinTest [k] (placeClaim k station level channel selection s)
    have hstamps := StampsStay.wouldWinTest [k] (placeClaim k station level channel selection s)
    have hslot := hclaims.claims k
    rw [placeClaim_slot hk] at hslot
    obtain ⟨c, hc, hidentity⟩ := Option.map_eq_some_iff.mp hslot
    exact .of_placed hk hidentity hc (fun j _ => hclaims.claims j) hstamps.arrival

/-- A claim accepted from a station that is heard. -/
theorem claim_accepted (h : Heard q .operate s) (hlive : Live level) (hchannel : channel ≤ 31)
    (hselection : selectionOf field = some selection)
    (hothers : ∀ j < 16, ∀ c, s.arbiter.claims.get j = some c → c.channel ≠ channel) (hk : k < 16)
    (hfree : s.arbiter.claims.get k = none) (hheld : ∀ j < k, s.arbiter.claims.get j ≠ none) :
    claim q level channel field s = giveAnswer .command (.claimResponse (.accepted k))
      (acceptClaim k q.station level channel selection (reservePlace q (lookedUp q s))) := by
  refine claim_judged h.place ((judgeClaim_heard h).trans (decideClaim_accepted hlive
    (claimedSelection_of hchannel hselection) ?_ (freeSlot_eq_some hk ?_ ?_)))
  all_goals rwa [claims_lookedUp]

/-- With sound tables a claim below level 7 is tested against the candidates it finds (R86, R88). -/
theorem acceptClaim_sound (hs : SoundTables s) (hlevel : level ≠ 7) (hk : k < 16) (hfree : s.arbiter.claims.get k = none) :
    let wins (z : Nat) : Prop :=
      selects s selection z = true ∧ eligible level (s.arbiter.masks.get z) = true ∧ (winner s z).2 < level
    let v := acceptClaim k station level channel selection s
    (∀ z < 128, wins z →
      v.arbiter.confirmCounter = (s.arbiter.confirmCounter + 1) % 256 ∧
      (v.arbiter.claims.get k).map Claim.state =
        some (.confirming v.arbiter.confirmCounter (16 * s.tables.fields.header.confirmTimeout)) ∧
      { station := station, slot := k, level := level, channel := channel, number := v.arbiter.confirmCounter } ∈
        v.router.confirms) ∧
    ((∀ z < 128, ¬wins z) → (v.arbiter.claims.get k).map Claim.state = some .pending) := by
  intro wins v
  have hs' : SoundTables (placeClaim k station level channel selection s) := hs
  have hslot := placeClaim_slot (s := s) (station := station) (level := level) (channel := channel) (selection := selection) hk
  have hcounter : (placeClaim k station level channel selection s).arbiter.confirmCounter = s.arbiter.confirmCounter := by
    rw [placeClaim_eq]
    rfl
  have hwins : wouldWin (placeClaim k station level channel selection s) k = true ↔ ∃ z < 128, wins z := by
    rw [wouldWin_of_pending hslot rfl]
    exact wins_congr (c := newClaim station channel level selection s.arbiter.nextArrival.arrivalCounter)
      (fun z _ => placeClaim_sameCandidates hk hfree z) rfl rfl
  have hv : v = if wouldWin (placeClaim k station level channel selection s) k then
      enterConfirming k (placeClaim k station level channel selection s)
    else placeClaim k station level channel selection s := by
    rw [← confirmWinners_one, ← wouldWinTest_sound [k] hs']
    exact acceptClaim_other hlevel
  refine ⟨fun z hz hwin => ?_, fun hnone => ?_⟩
  · rw [if_pos (hwins.mpr ⟨z, hz, hwin⟩)] at hv
    obtain ⟨hclaim, hnumber⟩ := enterConfirming_claim hslot
    have htimeout := headerValue_sound Header.confirmTimeout hs'
    rw [hv, hnumber, hclaim, Claim.asked, htimeout, hcounter, enterConfirming_of hslot]
    refine ⟨rfl, rfl, List.mem_append_right _ (List.mem_singleton.mpr ?_)⟩
    rw [Claim.confirmRequest, hcounter]
    rfl
  · rw [if_neg (mt hwins.mp fun ⟨z, hz, hwin⟩ => hnone z hz hwin)] at hv
    rw [hv, hslot]
    rfl

/-- A claim at level 7 goes on air at once (R86). -/
theorem acceptClaim_onAir (hk : k < 16) (hfree : s.arbiter.claims.get k = none) :
    let v := acceptClaim k station 7 channel selection s
    (v.arbiter.claims.get k).map Claim.state = some (.onAir v.arbiter.onAirCounter) ∧ StampGiven k s v ∧
      (SoundTables s → (∃ z < 128, selects s selection z = true) → PendingTested s v) := by
  intro v
  have hslot := placeClaim_slot (s := s) (station := station) (level := 7) (channel := channel) (selection := selection) hk
  obtain ⟨⟨c, hc, hstate, -⟩, hgiven, -⟩ := wentOnAir hslot
  have hv : v = enterOnAir k (placeClaim k station 7 channel selection s) := acceptClaim_seven
  rw [hv]
  refine ⟨by rw [hc, Option.map_some, hstate], hgiven.of_stamps (placeClaim_stamps hk hfree) (by rw [placeClaim_eq]; rfl),
    fun hs ⟨z, hz, hselects⟩ => ?_⟩
  have hplaced : selects (placeClaim k station 7 channel selection s) selection z = true := by
    rwa [selects_congr (placeClaim_sameCandidates hk hfree z).group]
  refine .enterOnAir (by exact hs) hslot (placeClaim_pendingKept hk hfree) (fun d hd => ?_) hz hplaced
  rw [hfree] at hd
  cases hd

/-- A claim below level 7 is tested alone, and no stamp is given (R86). -/
theorem acceptClaim_tested (hlevel : level ≠ 7) (hk : k < 16) (hfree : s.arbiter.claims.get k = none) :
    let v := acceptClaim k station level channel selection s
    v.arbiter.onAirCounter = s.arbiter.onAirCounter ∧
      (∀ j, (v.arbiter.claims.get j).bind Claim.onAirStamp = (s.arbiter.claims.get j).bind Claim.onAirStamp) ∧
      TestedAlone k (newClaim station channel level selection s.arbiter.nextArrival.arrivalCounter) s v := by
  intro v
  have hslot := placeClaim_slot (s := s) (station := station) (level := level) (channel := channel) (selection := selection) hk
  have hstamps := StampsStay.wouldWinTest [k] (placeClaim k station level channel selection s)
  have hv : v = wouldWinTest [k] (placeClaim k station level channel selection s) := acceptClaim_other hlevel
  rw [hv]
  have htested := testedAlone_wouldWinTest hslot rfl
  refine ⟨hstamps.onAir.trans (by rw [placeClaim_eq]; rfl), fun j => (hstamps.stamp j).trans (placeClaim_stamps hk hfree j),
    htested.of_start (by rw [placeClaim_eq]; rfl) ?_⟩
  exact headerValue_congr _ rfl

theorem wins_giveAnswer (w : Waiting) (body : AnswerBody) (s : State) (c : Claim) : Wins (giveAnswer w body s) c ↔ Wins s c :=
  wins_congr (fun _ _ => ⟨rfl, rfl, rfl, fun _ _ => rfl⟩) rfl rfl

theorem PendingTested.giveAnswer (h : PendingTested s t) (w : Waiting) (body : AnswerBody) : PendingTested s (giveAnswer w body t) :=
  h.congr rfl rfl rfl

/-- Settles O40. -/
theorem claimsAccepted : Obligations.ClaimsAccepted := by
  refine ⟨fun a => ⟨nextArrival_room, nextOnAir_room, nextArrival_full, nextOnAir_full, fun stamp j k m n hj hk hm hn =>
    ⟨one_le_placeOf ⟨hj, hm⟩, placeOf_le_countOf, placeOf_lt_iff ⟨hj, hm⟩ ⟨hk, hn⟩⟩⟩, ?_⟩
  intro q level channel k field selection s h hlive hchannel hselection hothers hk hfree hheld
  have hclaim := claim_accepted h hlive hchannel hselection hothers hk hfree hheld
  have hbeside := (acceptClaim_worked k q.station level channel selection (reservePlace q (lookedUp q s))).toBeside
  have harbiter : (reservePlace q (lookedUp q s)).arbiter = s.arbiter := (lookedUp_beside q s).2.1
  have hslot : (reservePlace q (lookedUp q s)).arbiter.claims.get k = none := by rw [harbiter, hfree]
  obtain ⟨⟨c, hc, hcchannel, hstation, hclevel, hcselection, hwaits, harrival⟩, hrest, hcounter⟩ :=
    accepted_acceptClaim (s := reservePlace q (lookedUp q s)) (station := q.station) (level := level) (channel := channel)
      (selection := selection) hk
  refine ⟨_, c, congrArg settled hclaim, hc, hstation, hcchannel, hclevel, hcselection, hwaits,
    answerQueued_beside (handLaw_lookedUp h.hand q) hbeside _, fun j _ hj => ⟨?channel, ?arrival⟩, hcounter.trans (by rw [harbiter]),
    harrival, fun hseven => ?onAir, fun hlevel => ?stamps, fun hlevel hs => ?sound, fun hlevel => ?tested⟩
  case channel =>
    have hchannels := congrArg (Option.map Claim.channel) (hrest j hj)
    rw [harbiter, nextArrival_claims, Option.map_map, Option.map_map, Option.map_map] at hchannels
    exact hchannels
  case arrival =>
    have harrivals := congrArg (Option.map Claim.arrival) (hrest j hj)
    rw [harbiter, Option.map_map, Option.map_map] at harrivals
    exact harrivals
  case onAir =>
    subst hseven
    obtain ⟨hstate, hgiven, htested⟩ := acceptClaim_onAir (station := q.station) (channel := channel) (selection := selection)
      hk hslot
    rw [hc, Option.map_some, Option.some_inj] at hstate
    refine ⟨hstate, ⟨?_, fun j hj hne => ?_⟩, fun hs hselects => ?_⟩
    · rw [← harbiter]
      exact hgiven.counter
    · rw [← harbiter]
      exact hgiven.others j hj hne
    · rw [lookedUp_sound hs] at htested ⊢
      have hpending : PendingTested s (acceptClaim k q.station 7 channel selection (reservePlace q s)) :=
        have ⟨hfails, hpasses, hinOrder⟩ := htested (by exact hs) hselects
        ⟨hfails, hpasses, hinOrder⟩
      exact hpending.giveAnswer _ _
  case stamps =>
    obtain ⟨honAir, hstamps, -⟩ := acceptClaim_tested (station := q.station) (channel := channel) (selection := selection)
      hlevel hk hslot
    rw [harbiter] at honAir hstamps
    exact ⟨honAir, fun j _ => hstamps j⟩
  case sound =>
    obtain ⟨hwins, hnone⟩ := acceptClaim_sound (s := reservePlace q (lookedUp q s)) (station := q.station) (channel := channel)
      (selection := selection) (by rw [lookedUp_sound hs]; exact hs) hlevel hk hslot
    rw [hc, Option.map_some, Option.some_inj] at hwins hnone
    rw [lookedUp_sound hs] at hwins hnone ⊢
    have hwinner (z : Nat) : winner (reservePlace q s) z = winner s z := SameCandidates.winner ⟨rfl, rfl, rfl, fun _ _ => rfl⟩
    simp only [hwinner] at hwins hnone
    exact ⟨hwins, hnone⟩
  case tested =>
    obtain ⟨-, -, htested⟩ := acceptClaim_tested (station := q.station) (channel := channel) (selection := selection)
      hlevel hk hslot
    have hstart := htested.of_start (s := s) (by rw [harbiter]) ((lookedUp_worked q s).toBeside.headerValue _)
    have hsame : Wins _ c ↔ Wins _ _ := (wins_giveAnswer .command (.claimResponse (.accepted k))
      (acceptClaim k q.station level channel selection (reservePlace q (lookedUp q s))) c).trans
        (wins_uncounted (c := newClaim q.station channel level selection
          (reservePlace q (lookedUp q s)).arbiter.nextArrival.arrivalCounter) hclevel hcselection)
    obtain ⟨hwon, hlost⟩ := hstart
    rw [hc, Option.map_some, Option.some_inj] at hwon hlost
    exact ⟨fun hw => hwon (hsame.mp hw), fun hl => hlost (mt hsame.mpr hl)⟩

end Sys2Proof.Machine
end

section
/-! SUPPORT. What the work of the Incident Engine leaves as it was, and the records a step, a due check and the entry of a plan
leave (R19 to R32, R59, R60). -/

namespace Sys2Proof.Machine

variable {s t u : State} {p k : Nat} {i j : Incident} {q : Sender} {f g : Bool}

/-! ### The place of the command in hand (R152) -/

/-- The place of the command in hand is kept for `q`. -/
def HandFor (q : Sender) (s : State) : Prop :=
  ∃ before after, s.router.places = before ++ .reserved .command q :: after ∧ ∀ x, .reserved .command x ∉ before

theorem handFor_reservePlace (h : HandLaw s.router) (q : Sender) : HandFor q (reservePlace q s) :=
  ⟨s.router.places, [], rfl, fun x hx => h _ hx x rfl⟩

theorem HandFor.of_router (h : HandFor q s) (hplaces : t.router.places = s.router.places) : HandFor q t := by
  obtain ⟨before, after, heq, hbefore⟩ := h
  exact ⟨before, after, hplaces.trans heq, hbefore⟩

theorem fillPlace_commit_not_command {source : Nat} {body : AnswerBody} {l : List Place} {x : Sender}
    (h : Place.reserved .command x ∉ l) : .reserved .command x ∉ fillPlace .commit source body l := by
  induction l with
  | nil => exact h
  | cons a l ih =>
    have hl := ih (List.not_mem_of_not_mem_cons h)
    have ha := List.ne_of_not_mem_cons h
    cases a with
    | filled a => exact List.not_mem_cons_of_ne_of_not_mem ha hl
    | reserved w y =>
      unfold fillPlace
      split
      · exact List.not_mem_cons_of_ne_of_not_mem nofun (List.not_mem_of_not_mem_cons h)
      · exact List.not_mem_cons_of_ne_of_not_mem ha hl

theorem fillPlace_append_of_mem {w : Waiting} {source : Nat} {body : AnswerBody} {x : Sender} {l : List Place} (m : List Place)
    (h : Place.reserved w x ∈ l) : fillPlace w source body (l ++ m) = fillPlace w source body l ++ m := by
  induction l with
  | nil => cases h
  | cons a l ih =>
    cases a with
    | filled a => simpa [fillPlace] using ih (by simpa using h)
    | reserved v y =>
      by_cases hv : v = w
      · simp [fillPlace, hv]
      · simpa [fillPlace, hv] using ih (by simpa [Ne.symm hv] using h)

/-- An answer for the commit leaves the place of the command in hand. -/
theorem HandFor.fillCommit (h : HandFor q s) (body : AnswerBody) : HandFor q (giveAnswer .commit body s) := by
  obtain ⟨before, after, heq, hbefore⟩ := h
  have hplaces : (giveAnswer .commit body s).router.places =
      fillPlace .commit s.router.address body (before ++ .reserved .command q :: after) := by
    rw [← heq]
    rfl
  by_cases hcommit : ∃ x, Place.reserved .commit x ∈ before
  · obtain ⟨x, hx⟩ := hcommit
    exact ⟨_, after, hplaces.trans (fillPlace_append_of_mem _ hx), fun y => fillPlace_commit_not_command (hbefore y)⟩
  · exact ⟨before, fillPlace .commit s.router.address body after,
      hplaces.trans (fillPlace_append fun x hx => hcommit ⟨x, hx⟩), hbefore⟩

/-- The command in hand is answered where its place is. -/
theorem HandFor.answered (h : HandFor q s) (body : AnswerBody) : AnswerQueued q body (giveAnswer .command body s) := by
  obtain ⟨before, after, heq, hbefore⟩ := h
  refine ⟨s.router.address, ?_⟩
  show _ ∈ fillPlace .command s.router.address body s.router.places
  rw [heq, fillPlace_append hbefore]
  simp [fillPlace]

/-! ### What the engine's work leaves as it was -/

/-- What the work of the Incident Engine leaves as it was: the timer, the ports, the stored tables with what is sound in them,
the arbiter, and the place of the command in hand; an edit is kept or ended. -/
structure EngineFrame (s t : State) : Prop where
  timer : t.timer = s.timer
  sPort : t.sPort = s.sPort
  zPort : t.zPort = s.zPort
  arbiter : t.arbiter = s.arbiter
  fields : t.tables.fields = s.tables.fields
  sound : ∀ r, Sound t r ↔ Sound s r
  hand : ∀ q, HandFor q s → HandFor q t
  edit : s.tables.edit = none → t.tables.edit = none

namespace EngineFrame

theorem refl (s : State) : EngineFrame s s := ⟨rfl, rfl, rfl, rfl, rfl, fun _ => .rfl, fun _ h => h, fun h => h⟩

theorem trans (h : EngineFrame s t) (g : EngineFrame t u) : EngineFrame s u where
  timer := g.timer.trans h.timer
  sPort := g.sPort.trans h.sPort
  zPort := g.zPort.trans h.zPort
  arbiter := g.arbiter.trans h.arbiter
  fields := g.fields.trans h.fields
  sound r := (g.sound r).trans (h.sound r)
  hand q hq := g.hand q (h.hand q hq)
  edit he := g.edit (h.edit he)

theorem onEngine (f : Engine → Engine) (s : State) : EngineFrame s (s.onEngine f) := { refl s with }

theorem of_beside (h : Beside s t) (harbiter : t.arbiter = s.arbiter) : EngineFrame s t where
  timer := h.timer
  sPort := h.sPort
  zPort := h.zPort
  arbiter := harbiter
  fields := h.fields
  sound := h.sound
  hand _ hq := hq.of_router h.places
  edit he := h.edit.trans he

theorem useEntry (r : EntryRef) (s : State) : EngineFrame s (useEntry r s).1 :=
  of_beside (useEntry_worked r s).toBeside (useEntry_arbiter r s)

theorem notify (n : Notice) (s : State) : EngineFrame s (notify n s) := of_beside (Worked.notify n s).toBeside rfl

theorem breakEdit (s : State) : EngineFrame s (breakEdit s) := by
  rcases hedit : s.tables.edit with _ | e
  · rw [breakEdit_none hedit]
    exact refl s
  have hclosed : EngineFrame s (Machine.notify (.editEnded .broken) (s.setEdit none)) :=
    { refl s with edit := fun _ => rfl }
  rw [breakEdit_some hedit]
  by_cases hphase : e.phase = .opened
  · rw [answerEnded_of_opened hphase]
    exact hclosed
  · rw [answerEnded_of_validating hphase]
    exact hclosed.trans { refl _ with hand := fun _ hq => hq.fillCommit _ }

theorem askGeneral (cause : GeneralCause) (s : State) : EngineFrame s (askGeneral cause s) := by
  rcases h : s.engine.general with _ | c
  · rw [askGeneral_eq cause h]
    exact ((notify _ s).trans (breakEdit _)).trans (onEngine _ _)
  · unfold Machine.askGeneral
    rw [h]
    exact refl s

end EngineFrame

/-! ### GENERAL and the records it leaves (R70) -/

theorem askGeneral_of_set (cause : GeneralCause) (h : s.engine.general ≠ none) : askGeneral cause s = s := by
  unfold askGeneral
  rw [if_pos (Option.isSome_iff_ne_none.mpr h)]

theorem askGeneral_sets (cause : GeneralCause) (h : s.engine.general = none) :
    (askGeneral cause s).engine = s.engine.withGeneral cause := by
  rw [askGeneral_eq cause h, State.onEngine_engine, breakEdit_engine]
  rfl

theorem askGeneral_engine (cause : GeneralCause) (s : State) :
    (askGeneral cause s).engine.general = some (s.engine.general.getD cause) ∧
      (askGeneral cause s).engine.incidents = s.engine.incidents ∧
      (askGeneral cause s).engine.idCounter = s.engine.idCounter := by
  rcases h : s.engine.general with _ | c
  · rw [askGeneral_sets cause h]
    exact ⟨rfl, rfl, rfl⟩
  · rw [askGeneral_of_set cause (by simp [h])]
    exact ⟨h, rfl, rfl⟩

theorem generalAfter_congr {P Q : Prop} [Decidable P] [Decidable Q] (h : P ↔ Q) : generalAfter s P = generalAfter s Q := by
  unfold generalAfter
  by_cases hq : Q
  · rw [if_pos hq, if_pos (h.mpr hq)]
  · rw [if_neg hq, if_neg fun hp => hq (h.mp hp)]

theorem generalAfter_of {P : Prop} [Decidable P] (h : P) : generalAfter s P = some (s.engine.general.getD .planFault) :=
  if_pos h

theorem generalAfter_not {P : Prop} [Decidable P] (h : ¬P) : generalAfter s P = s.engine.general := if_neg h

/-- A plan fault met in one of two parts of the work is met. -/
theorem generalAfter_trans (h : t.engine.general = generalAfter s (f = true)) :
    generalAfter t (g = true) = generalAfter s ((f || g) = true) := by
  unfold generalAfter at *
  cases f <;> cases g <;> simp_all

/-! ### The work on one record -/

theorem modifyAt_eq {f : Incident → Incident} {l : List Incident} (h : l[p]? = some i) : modifyAt f p l = l.set p (f i) := by
  induction l generalizing p with
  | nil => cases h
  | cons a l ih =>
    cases p with
    | zero =>
      obtain rfl : a = i := by simpa using h
      rfl
    | succ p => exact congrArg (a :: ·) (ih h)

theorem onIncident_incidents (f : Incident → Incident) (h : s.incident p = some i) :
    (onIncident p f s).engine.incidents = s.engine.incidents.set p (f i) := modifyAt_eq h

/-- The work on the record at position `p` leaves `j` there; `fault` says whether it met a plan fault (R26, R60). -/
structure RecordWork (p : Nat) (j : Incident) (fault : Bool) (s t : State) : Prop extends EngineFrame s t where
  incidents : t.engine.incidents = s.engine.incidents.set p j
  general : t.engine.general = generalAfter s (fault = true)
  idCounter : t.engine.idCounter = s.engine.idCounter

theorem incident_set_self (h : s.incident p = some i) (ht : t.engine.incidents = s.engine.incidents.set p j) :
    t.incident p = some j := by
  obtain ⟨hlt, -⟩ := List.getElem?_eq_some_iff.mp h
  show t.engine.incidents[p]? = some j
  rw [ht, List.getElem?_set_self hlt]

theorem incident_set_other {x : Nat} (hx : x ≠ p) (ht : t.engine.incidents = s.engine.incidents.set p j) :
    t.incident x = s.incident x := by
  show t.engine.incidents[x]? = s.engine.incidents[x]?
  rw [ht, List.getElem?_set_ne (Ne.symm hx)]

namespace RecordWork

theorem incident (h : RecordWork p j f s t) (hi : s.incident p = some i) : t.incident p = some j :=
  incident_set_self hi h.incidents

theorem of_frame (h : EngineFrame s t) (hengine : t.engine = s.engine) (hi : s.incident p = some i) :
    RecordWork p i false s t where
  toEngineFrame := h
  incidents := by
    obtain ⟨hlt, rfl⟩ := List.getElem?_eq_some_iff.mp hi
    rw [hengine, List.set_getElem_self]
  general := congrArg Engine.general hengine
  idCounter := congrArg Engine.idCounter hengine

theorem refl (hi : s.incident p = some i) : RecordWork p i false s s := of_frame (.refl s) rfl hi

theorem useEntry (r : EntryRef) (hi : s.incident p = some i) : RecordWork p i false s (useEntry r s).1 :=
  of_frame (.useEntry r s) (useEntry_engine r s) hi

theorem notify (n : Notice) (hi : s.incident p = some i) : RecordWork p i false s (notify n s) :=
  of_frame (.notify n s) rfl hi

theorem trans (h : RecordWork p i f s t) (g' : RecordWork p j g t u) : RecordWork p j (f || g) s u where
  toEngineFrame := h.toEngineFrame.trans g'.toEngineFrame
  incidents := by rw [g'.incidents, h.incidents, List.set_set]
  general := g'.general.trans (generalAfter_trans h.general)
  idCounter := g'.idCounter.trans h.idCounter

theorem onIncident (f : Incident → Incident) (hi : s.incident p = some i) : RecordWork p (f i) false s (onIncident p f s) where
  toEngineFrame := .onEngine _ s
  incidents := onIncident_incidents f hi
  general := rfl
  idCounter := rfl

theorem planFault (hi : s.incident p = some i) : RecordWork p i.faulted true s (planFault p s) := by
  obtain ⟨hgeneral, hincidents, hcounter⟩ := askGeneral_engine .planFault s
  have hi' : (askGeneral .planFault s).incident p = some i := (congrArg (·[p]?) hincidents).trans hi
  have hfault := onIncident Incident.faulted hi'
  exact
    { toEngineFrame := (EngineFrame.askGeneral .planFault s).trans hfault.toEngineFrame
      incidents := hfault.incidents.trans (by rw [hincidents])
      general := hgeneral.trans (generalAfter_of rfl).symm
      idCounter := hcounter }

theorem raiseZones (d : Demand) (zs : List Nat) (hi : s.incident p = some i) :
    RecordWork p (i.raisedTo d zs) false s (raiseZones p d zs s) where
  toEngineFrame := .onEngine (fun e => Engine.recompute (fun z => (raisedZones s p d zs).contains z) none
    { e with incidents := modifyAt (Incident.raisedTo d zs) p e.incidents }) s
  incidents := onIncident_incidents (Incident.raisedTo d zs) hi
  general := rfl
  idCounter := rfl

end RecordWork

/-! ### The reads of a step (R25, R26) -/

theorem readStoreyCount_unsound (h : ¬Sound s headerRef) : readStoreyCount s = ((useEntry headerRef s).1, none) := by
  have hused := useEntry_unsound h
  unfold readStoreyCount
  rcases huse : useEntry headerRef s with ⟨t, _ | _⟩
  · rfl
  · rw [huse] at hused
    cases hused

theorem readSpan_unsound {storey : Nat} (h : ¬Sound s (storeyRef storey)) :
    readSpan storey s = ((useEntry (storeyRef storey) s).1, none) := by
  have hused := useEntry_unsound h
  unfold readSpan
  rcases huse : useEntry (storeyRef storey) s with ⟨t, _ | _⟩
  · rfl
  · rw [huse] at hused
    cases hused

/-- The zones of the storeys listed. -/
def storeyZones (s : State) (storeys : List Nat) : List Nat := storeys.flatMap fun storey => (s.tables.fields.storeys.get storey).zones

theorem mem_storeyZones {storeys : List Nat} {z : Nat} :
    z ∈ storeyZones s storeys ↔ ∃ storey ∈ storeys, z ∈ (s.tables.fields.storeys.get storey).zones := List.mem_flatMap

theorem readStoreys_sound {l : List Nat} (h : ∀ storey ∈ l, Sound s (storeyRef storey)) :
    readStoreys l s = (s, storeyZones s l, true) := by
  induction l with
  | nil => rfl
  | cons a l ih =>
    unfold readStoreys
    rw [readSpan_sound (h a (by simp))]
    dsimp only
    rw [ih fun storey hl => h storey (by simp [hl])]
    rfl

theorem readStoreys_stops {before after : List Nat} {m : Nat} (h : ∀ storey ∈ before, Sound s (storeyRef storey))
    (hm : ¬Sound s (storeyRef m)) :
    readStoreys (before ++ m :: after) s = ((useEntry (storeyRef m) s).1, storeyZones s before, false) := by
  induction before with
  | nil =>
    show readStoreys (m :: after) s = _
    unfold readStoreys
    rw [readSpan_unsound hm]
    rfl
  | cons a l ih =>
    show readStoreys (a :: (l ++ m :: after)) s = _
    unfold readStoreys
    rw [readSpan_sound (h a (by simp))]
    dsimp only
    rw [ih fun storey hl => h storey (by simp [hl])]
    rfl

/-- Either every storey listed is sound or there is a first that is not. -/
theorem sound_or_first_unsound (s : State) (l : List Nat) : (∀ storey ∈ l, Sound s (storeyRef storey)) ∨
    ∃ before m after, l = before ++ m :: after ∧ (∀ storey ∈ before, Sound s (storeyRef storey)) ∧
      ¬Sound s (storeyRef m) := by
  induction l with
  | nil => exact .inl nofun
  | cons a l ih =>
    by_cases ha : Sound s (storeyRef a)
    · rcases ih with hall | ⟨before, m, after, rfl, hbefore, hm⟩
      · exact .inl (List.forall_mem_cons.mpr ⟨ha, hall⟩)
      · exact .inr ⟨a :: before, m, after, rfl, List.forall_mem_cons.mpr ⟨ha, hbefore⟩, hm⟩
    · exact .inr ⟨[], a, l, rfl, nofun, ha⟩

theorem storeysRead_of_sound (hk : Sound s (stepRef k)) (hh : Sound s headerRef)
    (hall : ∀ storey ∈ (i.rangeOf s k).storeys, Sound s (storeyRef storey)) :
    i.storeysRead s k = (i.rangeOf s k).storeys ∧ i.appliesWhole s k = true := by
  unfold Incident.storeysRead Incident.appliesWhole
  refine ⟨(if_pos ⟨hk, hh⟩).trans (takeWhile_eq_self fun a ha => decide_eq_true (hall a ha)), ?_⟩
  simpa [hk, hh] using hall

theorem storeysRead_of_stop {before after : List Nat} {m : Nat} (hk : Sound s (stepRef k)) (hh : Sound s headerRef)
    (heq : (i.rangeOf s k).storeys = before ++ m :: after) (hbefore : ∀ storey ∈ before, Sound s (storeyRef storey))
    (hm : ¬Sound s (storeyRef m)) : i.storeysRead s k = before ∧ i.appliesWhole s k = false := by
  unfold Incident.storeysRead Incident.appliesWhole
  rw [if_pos ⟨hk, hh⟩, heq]
  refine ⟨?_, by simp [hm]⟩
  rw [List.takeWhile_append_of_pos fun a ha => decide_eq_true (hbefore a ha), List.takeWhile_cons_of_neg (by simp [hm]),
    List.append_nil]

theorem storeysRead_of_unsound (h : ¬Sound s (stepRef k) ∨ ¬Sound s headerRef) :
    i.storeysRead s k = [] ∧ i.appliesWhole s k = false := by
  have hno : ¬(Sound s (stepRef k) ∧ Sound s headerRef) := fun ⟨hk, hh⟩ => h.elim (· hk) (· hh)
  unfold Incident.storeysRead Incident.appliesWhole
  exact ⟨if_neg hno, by simp [hno]⟩

end Sys2Proof.Machine
end

section
/-! SUPPORT. A step applied, a due check and the entry of a plan, each by the record it leaves (R19, R23 to R32, R59, R60). -/

namespace Sys2Proof.Machine

variable {s t u : State} {p k n : Nat} {i j : Incident}

/-! ### The record after a step -/

theorem mapFrom_id {α : Type} (m : Nat) (l : List α) : mapFrom (fun _ a => a) m l = l := by
  induction l generalizing m with
  | nil => rfl
  | cons a l ih => rw [mapFrom, ih]

theorem raiseVector_nil (d : Demand) (v : Tab Demand 128) : raiseVector d [] v = v := by
  obtain ⟨items, size⟩ := v
  have hid : (fun z (old : Demand) => if z ∈ ([] : List Nat) then old.max d else old) = fun _ old => old := by
    funext z old
    exact if_neg (by simp)
  unfold raiseVector Tab.mapIdx
  simp only [hid, mapFrom_id]

theorem raisedTo_nil (d : Demand) (i : Incident) : i.raisedTo d [] = i := by
  unfold Incident.raisedTo
  rw [raiseVector_nil]

/-- The record with its demand raised on the zones of the storeys that step `k` reads (R25, R31). -/
def Incident.raisedBy (s : State) (k : Nat) (i : Incident) : Incident :=
  i.raisedTo (s.tables.fields.steps.get k).kind.demand (storeyZones s (i.storeysRead s k))

theorem raisedBy_demand (s : State) (k : Nat) (i : Incident) : (i.raisedBy s k).demand =
    i.demand.mapIdx fun z d =>
      if (i.storeysRead s k).any fun storey => decide (z ∈ (s.tables.fields.storeys.get storey).zones) then
        d.max (s.tables.fields.steps.get k).kind.demand
      else d := by
  refine congrArg i.demand.mapIdx (funext fun z => funext fun d => ?_)
  have hiff : z ∈ storeyZones s (i.storeysRead s k) ↔
      ((i.storeysRead s k).any fun storey => decide (z ∈ (s.tables.fields.storeys.get storey).zones)) = true := by
    simp [mem_storeyZones]
  exact ite_congr_iff hiff rfl rfl

/-- The record once step `k` stands in its last-step record, placed in the range `r` (R25, R32). -/
def Incident.stepped (s : State) (k : Nat) (r : StepRange) (i : Incident) : Incident :=
  { i with
    lastStep := some { step := k, range := r.range, clipped := r.clipped, unplaced := r.unplaced }
    nextStep := (s.tables.fields.steps.get k).next }

theorem withStep_whole (h : i.appliesWhole s k = true) : i.withStep s k = (i.raisedBy s k).stepped s k (i.rangeOf s k) := by
  have hdemand := raisedBy_demand s k i
  unfold Incident.withStep
  rw [if_pos h]
  dsimp only
  rw [← hdemand]
  rfl

theorem withStep_stopped (h : i.appliesWhole s k = false) : i.withStep s k = (i.raisedBy s k).faulted := by
  have hdemand := raisedBy_demand s k i
  unfold Incident.withStep
  rw [if_neg (by simp [h])]
  rw [← hdemand]
  rfl

theorem get_withStep_demand (s : State) (k : Nat) (i : Incident) {z : Nat} (hz : z < 128) : (i.withStep s k).demand.get z =
    if ∃ storey ∈ i.storeysRead s k, z ∈ (s.tables.fields.storeys.get storey).zones then
      (i.demand.get z).max (s.tables.fields.steps.get k).kind.demand
    else i.demand.get z := by
  have hdemand : (i.withStep s k).demand = (i.raisedBy s k).demand := by
    rcases h : i.appliesWhole s k
    · rw [withStep_stopped h, Incident.faulted]
    · rw [withStep_whole h, Incident.stepped]
  rw [hdemand]
  exact (get_raiseVector _ _ _ hz).trans (ite_congr_iff mem_storeyZones rfl rfl)

/-- What of a record a step leaves as it was. -/
structure StepKept (i j : Incident) : Prop where
  id : j.id = i.id
  state : j.state = i.state
  origin : j.origin = i.origin
  plan : j.plan = i.plan
  dzList : j.dzList = i.dzList
  further : j.further = i.further
  elapsed : j.elapsed = i.elapsed
  fault : i.planFault = true → j.planFault = true
  demand : ∀ z < 128, (i.demand.get z).rank ≤ (j.demand.get z).rank

theorem StepKept.refl (i : Incident) : StepKept i i := ⟨rfl, rfl, rfl, rfl, rfl, rfl, rfl, fun h => h, fun _ _ => Nat.le_refl _⟩

theorem StepKept.trans {l : Incident} (h : StepKept i j) (g : StepKept j l) : StepKept i l where
  id := g.id.trans h.id
  state := g.state.trans h.state
  origin := g.origin.trans h.origin
  plan := g.plan.trans h.plan
  dzList := g.dzList.trans h.dzList
  further := g.further.trans h.further
  elapsed := g.elapsed.trans h.elapsed
  fault hi := g.fault (h.fault hi)
  demand z hz := Nat.le_trans (h.demand z hz) (g.demand z hz)

theorem rank_le_max (a b : Demand) : a.rank ≤ (a.max b).rank ∧ b.rank ≤ (a.max b).rank := by
  unfold Demand.max
  split <;> omega

theorem StepKept.faulted (i : Incident) : StepKept i i.faulted := { refl i with fault := fun _ => rfl }

theorem StepKept.withStep (s : State) (k : Nat) (i : Incident) : StepKept i (i.withStep s k) := by
  have hrank : ∀ z < 128, (i.demand.get z).rank ≤ ((i.withStep s k).demand.get z).rank := fun z hz => by
    rw [get_withStep_demand s k i hz]
    split
    · exact (rank_le_max _ _).1
    · exact Nat.le_refl _
  rcases h : i.appliesWhole s k
  · rw [withStep_stopped h] at hrank ⊢
    exact ⟨rfl, rfl, rfl, rfl, rfl, rfl, rfl, fun _ => rfl, hrank⟩
  · rw [withStep_whole h] at hrank ⊢
    exact ⟨rfl, rfl, rfl, rfl, rfl, rfl, rfl, fun h => h, hrank⟩

theorem StepKept.dueSteps (s : State) (n : Nat) (i : Incident) : StepKept i (Incident.dueSteps s n i) := by
  induction n generalizing i with
  | zero => exact refl i
  | succ n ih =>
    unfold Incident.dueSteps
    split
    · exact refl i
    · next k hk =>
      split
      · exact faulted i
      · split
        · exact refl i
        · exact (withStep s k i).trans (ih _)

/-! ### The record read from another state of the event -/

theorem EngineFrame.rangeOf (h : EngineFrame s t) (k : Nat) (i : Incident) : i.rangeOf t k = i.rangeOf s k := by
  rw [Incident.rangeOf, Incident.rangeOf, h.fields]

theorem EngineFrame.decide_sound (h : EngineFrame s t) (r : EntryRef) : decide (Sound t r) = decide (Sound s r) :=
  decide_eq_decide.mpr (h.sound r)

theorem EngineFrame.storeysRead (h : EngineFrame s t) (k : Nat) (i : Incident) : i.storeysRead t k = i.storeysRead s k := by
  unfold Incident.storeysRead
  simp only [h.decide_sound, h.rangeOf]
  exact ite_congr_iff (and_congr (h.sound _) (h.sound _)) rfl rfl

theorem EngineFrame.appliesWhole (h : EngineFrame s t) (k : Nat) (i : Incident) : i.appliesWhole t k = i.appliesWhole s k := by
  unfold Incident.appliesWhole
  simp only [h.decide_sound, h.rangeOf, Bool.decide_and]

theorem EngineFrame.withStep (h : EngineFrame s t) (k : Nat) (i : Incident) : i.withStep t k = i.withStep s k := by
  rcases happlies : i.appliesWhole s k
  · rw [withStep_stopped happlies, withStep_stopped ((h.appliesWhole k i).trans happlies), Incident.raisedBy,
      Incident.raisedBy, storeyZones, storeyZones, h.fields, h.storeysRead]
  · rw [withStep_whole happlies, withStep_whole ((h.appliesWhole k i).trans happlies), Incident.raisedBy,
      Incident.raisedBy, storeyZones, storeyZones, Incident.stepped, Incident.stepped, h.fields, h.storeysRead, h.rangeOf]

theorem EngineFrame.dueSteps (h : EngineFrame s t) (n : Nat) (i : Incident) :
    Incident.dueSteps t n i = Incident.dueSteps s n i := by
  induction n generalizing i with
  | zero => rfl
  | succ n ih => simp only [Incident.dueSteps, h.sound, h.fields, h.withStep, ih]

theorem EngineFrame.entered (h : EngineFrame s t) (i : Incident) : i.entered t = i.entered s := by
  simp only [Incident.entered, h.sound, h.fields, h.dueSteps]

theorem dueSteps_none (h : i.nextStep = none) (n : Nat) : Incident.dueSteps s n i = i := by
  cases n with
  | zero => rfl
  | succ n =>
    unfold Incident.dueSteps
    rw [h]

theorem dueSteps_unsound (hk : i.nextStep = some k) (h : ¬Sound s (stepRef k)) :
    Incident.dueSteps s (n + 1) i = i.faulted := by
  unfold Incident.dueSteps
  rw [hk]
  exact if_pos h

theorem dueSteps_waits (hk : i.nextStep = some k) (h : Sound s (stepRef k))
    (hdelay : i.elapsed < (s.tables.fields.steps.get k).delay) : Incident.dueSteps s (n + 1) i = i := by
  unfold Incident.dueSteps
  rw [hk]
  exact (if_neg (not_not_intro h)).trans (if_pos hdelay)

theorem dueSteps_due (hk : i.nextStep = some k) (h : Sound s (stepRef k))
    (hdelay : ¬i.elapsed < (s.tables.fields.steps.get k).delay) :
    Incident.dueSteps s (n + 1) i = Incident.dueSteps s n (i.withStep s k) := by
  conv => lhs; unfold Incident.dueSteps
  rw [hk]
  exact (if_neg (not_not_intro h)).trans (if_neg hdelay)

/-! ### A step applied (R25, R26) -/

theorem applyStep_unsound (hi : s.incident p = some i) (h : ¬Sound s (stepRef k)) :
    applyStep p k s = (planFault p (useEntry (stepRef k) s).1, false) := by
  have hused := useEntry_unsound h
  unfold applyStep
  rw [hi]
  dsimp only
  rcases huse : useEntry (stepRef k) s with ⟨t, _ | _⟩
  · rfl
  · rw [huse] at hused
    cases hused

theorem applyStep_headerUnsound (hi : s.incident p = some i) (hk : Sound s (stepRef k)) (h : ¬Sound s headerRef) :
    applyStep p k s = (planFault p (useEntry headerRef s).1, false) := by
  unfold applyStep
  rw [hi]
  dsimp only
  rw [useEntry_sound hk]
  dsimp only
  rw [readStoreyCount_unsound h]

theorem applyStep_stops {before after : List Nat} {m : Nat} (hi : s.incident p = some i) (hk : Sound s (stepRef k))
    (hh : Sound s headerRef) (heq : (i.rangeOf s k).storeys = before ++ m :: after)
    (hbefore : ∀ storey ∈ before, Sound s (storeyRef storey)) (hm : ¬Sound s (storeyRef m)) :
    applyStep p k s =
      (planFault p (raiseZones p (s.tables.fields.steps.get k).kind.demand (storeyZones s before)
        (useEntry (storeyRef m) s).1), false) := by
  have hread := readStoreys_stops (after := after) hbefore hm
  rw [← heq] at hread
  unfold applyStep
  rw [hi]
  dsimp only
  rw [useEntry_sound hk]
  dsimp only
  rw [readStoreyCount_sound hh]
  dsimp only
  rw [show stepRange s.tables.fields.header.storeyCount i.origin (s.tables.fields.steps.get k) = i.rangeOf s k from rfl, hread]

theorem applyStep_whole (hi : s.incident p = some i) (hk : Sound s (stepRef k)) (hh : Sound s headerRef)
    (hall : ∀ storey ∈ (i.rangeOf s k).storeys, Sound s (storeyRef storey)) :
    applyStep p k s =
      (onIncident p (Incident.stepped s k (i.rangeOf s k))
        (raiseZones p (s.tables.fields.steps.get k).kind.demand (storeyZones s (i.rangeOf s k).storeys) s), true) := by
  unfold applyStep
  rw [hi]
  dsimp only
  rw [useEntry_sound hk]
  dsimp only
  rw [readStoreyCount_sound hh]
  dsimp only
  rw [show stepRange s.tables.fields.header.storeyCount i.origin (s.tables.fields.steps.get k) = i.rangeOf s k from rfl,
    readStoreys_sound hall]
  rfl

/-- A step applied leaves the record that `withStep` says, and meets a plan fault where it cannot be applied whole. -/
theorem applyStep_work (hi : s.incident p = some i) :
    RecordWork p (i.withStep s k) (!i.appliesWhole s k) s (applyStep p k s).1 ∧
      (applyStep p k s).2 = i.appliesWhole s k := by
  have hfaulted {r : EntryRef} (h : ¬Sound s (stepRef k) ∨ ¬Sound s headerRef)
      (heq : applyStep p k s = (planFault p (useEntry r s).1, false)) :
      RecordWork p (i.withStep s k) (!i.appliesWhole s k) s (applyStep p k s).1 ∧
        (applyStep p k s).2 = i.appliesWhole s k := by
    obtain ⟨hread, hnot⟩ := storeysRead_of_unsound (i := i) h
    have hused := RecordWork.useEntry r hi
    rw [heq, withStep_stopped hnot, Incident.raisedBy, hread, hnot]
    refine ⟨?_, rfl⟩
    rw [storeyZones, List.flatMap_nil, raisedTo_nil]
    exact hused.trans (.planFault (hused.incident hi))
  by_cases hk : Sound s (stepRef k)
  case neg => exact hfaulted (.inl hk) (applyStep_unsound hi hk)
  by_cases hh : Sound s headerRef
  case neg => exact hfaulted (.inr hh) (applyStep_headerUnsound hi hk hh)
  rcases sound_or_first_unsound s (i.rangeOf s k).storeys with hall | ⟨before, m, after, heq, hbefore, hm⟩
  · obtain ⟨hread, hwhole⟩ := storeysRead_of_sound hk hh hall
    have hraised := RecordWork.raiseZones (s.tables.fields.steps.get k).kind.demand
      (storeyZones s (i.rangeOf s k).storeys) hi
    rw [applyStep_whole hi hk hh hall, withStep_whole hwhole, Incident.raisedBy, hread, hwhole]
    exact ⟨hraised.trans (.onIncident _ (hraised.incident hi)), rfl⟩
  · obtain ⟨hread, hnot⟩ := storeysRead_of_stop hk hh heq hbefore hm
    have hused := RecordWork.useEntry (storeyRef m) hi
    have hraised := hused.trans (.raiseZones (s.tables.fields.steps.get k).kind.demand (storeyZones s before)
      (hused.incident hi))
    rw [applyStep_stops hi hk hh heq hbefore hm, withStep_stopped hnot, Incident.raisedBy, hread, hnot]
    exact ⟨hraised.trans (.planFault (hraised.incident hi)), rfl⟩

/-- With sound tables a step changes the engine alone. -/
theorem applyStep_engineOnly (hs : SoundTables s) (hi : s.incident p = some i) :
    applyStep p k s = ({ s with engine := (applyStep p k s).1.engine }, true) := by
  rw [applyStep_whole hi (hs _) (hs _) fun _ _ => hs _]
  rfl

/-! ### Due checks and plan entry (R19, R23, R59, R60) -/

theorem dueCheck_none (hi : s.incident p = some i) (h : i.nextStep = none) (n : Nat) : dueCheck p n s = s := by
  cases n with
  | zero => rfl
  | succ n =>
    unfold dueCheck
    rw [hi]
    dsimp only
    rw [h]

theorem dueCheck_unsound (hi : s.incident p = some i) (hk : i.nextStep = some k) (h : ¬Sound s (stepRef k)) :
    dueCheck p (n + 1) s = planFault p (useEntry (stepRef k) s).1 := by
  have hused := useEntry_unsound h
  unfold dueCheck
  rw [hi]
  dsimp only
  rw [hk]
  dsimp only
  rcases huse : useEntry (stepRef k) s with ⟨t, _ | _⟩
  · rfl
  · rw [huse] at hused
    cases hused

theorem dueCheck_sound (hi : s.incident p = some i) (hk : i.nextStep = some k) (h : Sound s (stepRef k)) :
    dueCheck p (n + 1) s =
      if i.elapsed < (s.tables.fields.steps.get k).delay then s else dueCheck p n (applyStep p k s).1 := by
  conv => lhs; unfold dueCheck
  rw [hi]
  dsimp only
  rw [hk]
  dsimp only
  rw [useEntry_sound h]

/-- The work on the record at position `p`, which stands as `i` before and as `j` after it; GENERAL is asked for where the
record meets its first plan fault. -/
def FaultWork (p : Nat) (i j : Incident) (s t : State) : Prop :=
  ∃ fault, RecordWork p j fault s t ∧ (i.planFault = false → fault = j.planFault) ∧ (SoundTables s → fault = false)

theorem withStep_planFault (h : i.planFault = false) : (i.withStep s k).planFault = !i.appliesWhole s k := by
  rcases hwhole : i.appliesWhole s k
  · rw [withStep_stopped hwhole]
    rfl
  · rw [withStep_whole hwhole]
    exact h

theorem withStep_stopped_next (h : i.appliesWhole s k = false) : (i.withStep s k).nextStep = none := by
  rw [withStep_stopped h]
  rfl

/-- Work that met a plan fault left no next step, so no work on the record follows. -/
theorem dueCheck_work (hi : s.incident p = some i) (n : Nat) : FaultWork p i (Incident.dueSteps s n i) s (dueCheck p n s) := by
  induction n generalizing s i with
  | zero => exact ⟨false, .refl hi, fun h => h.symm, fun _ => rfl⟩
  | succ n ih =>
    rcases hk : i.nextStep with _ | k
    · rw [dueSteps_none hk, dueCheck_none hi hk]
      exact ⟨false, .refl hi, fun h => h.symm, fun _ => rfl⟩
    by_cases hsound : Sound s (stepRef k)
    case neg =>
      have hused := RecordWork.useEntry (stepRef k) hi
      rw [dueSteps_unsound hk hsound, dueCheck_unsound hi hk hsound]
      exact ⟨true, hused.trans (.planFault (hused.incident hi)), fun _ => rfl, fun hs => absurd (hs _) hsound⟩
    rw [dueCheck_sound hi hk hsound]
    split
    case isTrue hdelay =>
      rw [dueSteps_waits hk hsound hdelay]
      exact ⟨false, .refl hi, fun h => h.symm, fun _ => rfl⟩
    case isFalse hdelay =>
      rw [dueSteps_due hk hsound hdelay]
      obtain ⟨happlied, -⟩ := applyStep_work (k := k) hi
      rcases hwhole : i.appliesWhole s k
      · have hnone := withStep_stopped_next hwhole
        rw [dueSteps_none hnone, dueCheck_none (happlied.incident hi) hnone]
        exact ⟨_, happlied, fun h => (withStep_planFault h).symm, fun hs => by simp [Incident.appliesWhole_sound hs]⟩
      · obtain ⟨fault, hwork, hfault, hnone⟩ := ih (happlied.incident hi)
        rw [happlied.dueSteps] at hwork hfault
        refine ⟨_, happlied.trans hwork, fun h => ?_, fun hs => ?_⟩
        case refine_2 => simp [hwhole, hnone fun r => (happlied.sound r).mpr (hs r)]
        rw [hwhole, Bool.not_true, Bool.false_or]
        exact hfault ((withStep_planFault h).trans (by rw [hwhole]; rfl))

theorem dueCheck_engineOnly (hs : SoundTables s) (hi : s.incident p = some i) (n : Nat) :
    dueCheck p n s = { s with engine := (dueCheck p n s).engine } := by
  induction n generalizing s i with
  | zero => rfl
  | succ n ih =>
    rcases hk : i.nextStep with _ | k
    · rw [dueCheck_none hi hk]
    rw [dueCheck_sound hi hk (hs _)]
    split
    · rfl
    · obtain ⟨happlied, -⟩ := applyStep_work (k := k) hi
      have hstate := congrArg Prod.fst (applyStep_engineOnly (k := k) hs hi)
      rw [ih (fun r => (happlied.sound r).mpr (hs r)) (happlied.incident hi)]
      generalize (dueCheck p n (applyStep p k s).1).engine = e
      rw [hstate]

/-- The record with the first step of its plan as its next step (R23). -/
def Incident.directed (s : State) (i : Incident) : Incident := { i with nextStep := s.tables.fields.plans.get i.plan }

theorem enterPlan_sound (hi : s.incident p = some i) (h : Sound s (planRef i.plan)) : enterPlan p s =
    dueCheck p dueFuel (onIncident p (Incident.directed s) s) := by
  unfold enterPlan
  rw [hi]
  dsimp only
  rw [useEntry_sound h]
  rfl

theorem enterPlan_unsound (hi : s.incident p = some i) (h : ¬Sound s (planRef i.plan)) :
    enterPlan p s = planFault p (useEntry (planRef i.plan) s).1 := by
  have hused := useEntry_unsound h
  unfold enterPlan
  rw [hi]
  dsimp only
  rcases huse : useEntry (planRef i.plan) s with ⟨t, _ | _⟩
  · rfl
  · rw [huse] at hused
    cases hused

theorem enterPlan_work (hi : s.incident p = some i) : FaultWork p i (i.entered s) s (enterPlan p s) := by
  unfold Incident.entered
  split
  case isTrue h =>
    have hnext := RecordWork.onIncident (Incident.directed s) hi
    obtain ⟨fault, hwork, hfault, hnone⟩ := dueCheck_work (hnext.incident hi) dueFuel
    rw [hnext.dueSteps] at hwork hfault
    rw [enterPlan_sound hi h]
    exact ⟨_, hnext.trans hwork, hfault, fun hs => hnone fun r => (hnext.sound r).mpr (hs r)⟩
  case isFalse h =>
    have hused := RecordWork.useEntry (planRef i.plan) hi
    rw [enterPlan_unsound hi h]
    exact ⟨true, hused.trans (.planFault (hused.incident hi)), fun _ => rfl, fun hs => absurd (hs _) h⟩

theorem enterPlan_engineOnly (hs : SoundTables s) (hi : s.incident p = some i) :
    enterPlan p s = { s with engine := (enterPlan p s).engine } := by
  have hnext := RecordWork.onIncident (Incident.directed s) hi
  rw [enterPlan_sound hi (hs _)]
  exact dueCheck_engineOnly (fun r => (hnext.sound r).mpr (hs r)) (hnext.incident hi) dueFuel

theorem StepKept.entered (s : State) (i : Incident) : StepKept i (i.entered s) := by
  unfold Incident.entered
  split
  · exact StepKept.trans (j := { i with nextStep := s.tables.fields.plans.get i.plan })
      ⟨rfl, rfl, rfl, rfl, rfl, rfl, rfl, fun h => h, fun _ _ => Nat.le_refl _⟩ (.dueSteps s 256 _)
  · exact .faulted i

/-! ### O35 -/

theorem withStep_general (h : i.appliesWhole s k = false) (hi : s.incident p = some i) :
    (applyStep p k s).1.engine.general = some (s.engine.general.getD .planFault) := by
  obtain ⟨hwork, -⟩ := applyStep_work (k := k) hi
  rw [hwork.general, h]
  exact generalAfter_of rfl

/-- Settles O35, by the entries that stop a step. -/
theorem stepsAreAppliedWhole : Obligations.StepsAreAppliedWhole := by
  refine ⟨fun s p k i hi => ?_, fun s p k i hs hi => ?_⟩
  case refine_1 =>
    obtain ⟨hwork, hresult⟩ := applyStep_work (k := k) hi
    intro e r stops
    have hstops {storeys : List Nat} (hread : i.storeysRead s k = storeys) (hnot : i.appliesWhole s k = false) :
        stops storeys := by
      refine ⟨(i.raisedBy s k).demand, hresult.trans hnot, ?_, withStep_general hnot hi, fun z hz => ?_⟩
      · rw [hwork.incidents, withStep_stopped hnot]
        rfl
      · rw [← hread]
        exact (get_raiseVector _ _ _ hz).trans (ite_congr_iff mem_storeyZones rfl rfl)
    refine ⟨fun h => ?_, fun before m after hk hh heq hbefore hm => ?_, hresult, hwork.incidents, fun n => ?_⟩
    · obtain ⟨hread, hnot⟩ := storeysRead_of_unsound (i := i) h
      exact hstops hread hnot
    · obtain ⟨hread, hnot⟩ := storeysRead_of_stop hk hh heq hbefore hm
      exact hstops hread hnot
    · obtain ⟨fault, hdue, -, -⟩ := dueCheck_work hi n
      exact hdue.incidents
  case refine_2 =>
    obtain ⟨hwork, -⟩ := applyStep_work (k := k) hi
    have hwhole := Incident.appliesWhole_sound hs k i
    intro e r
    refine ⟨⟨(i.raisedBy s k).demand, applyStep_engineOnly hs hi, ?_, fun z hz => ?_⟩,
      fun hk n => dueCheck_sound hi hk (hs _), fun hnone => dueCheck_none hi hnone⟩
    · rw [hwork.incidents, withStep_whole hwhole]
      rfl
    · refine (get_raiseVector _ _ _ hz).trans (ite_congr_iff (mem_storeyZones.trans ?_) rfl rfl)
      rw [Incident.storeysRead_sound hs]
      rfl

end Sys2Proof.Machine
end

section
/-! SUPPORT. The end of an event of the engine, and the controls that name an incident: HOLD, RESUME and ADVANCE (R61 to R65,
R73). -/

namespace Sys2Proof.Machine

variable {s t u v : State} {p k n z id : Nat} {i j : Incident} {q : Sender} {f : State → State}

/-! ### The hand-over at the end of an event (R73) -/

theorem planChanges_nil {before after : Engine} (h : ∀ z < 128, before.planClaim z = after.planClaim z) :
    planChanges before after = [] :=
  List.eq_nil_iff_forall_not_mem.mpr fun _ hc =>
    let ⟨hlt, hne, _⟩ := mem_planChanges.mp hc
    hne (h _ hlt)

theorem engineEvent_nil (h : planChanges s.engine (f s).engine = []) : engineEvent f s = f s := by
  unfold engineEvent
  dsimp only
  rw [h]

theorem engineEvent_some (h : planChanges s.engine (f s).engine ≠ []) :
    engineEvent f s = takePlanClaims (planChanges s.engine (f s).engine) (f s) := by
  unfold engineEvent
  dsimp only
  rcases hchanges : planChanges s.engine (f s).engine with _ | ⟨c, l⟩
  · exact absurd hchanges h
  · rfl

/-- An event that leaves the demand and the timers hands nothing over. -/
theorem engineEvent_unchanged (hdemand : (f s).engine.demand = s.engine.demand)
    (hclear : (f s).engine.allClear = s.engine.allClear) : engineEvent f s = f s :=
  engineEvent_nil (planChanges_nil fun z _ => by rw [Engine.planClaim, Engine.planClaim, hdemand, hclear])

theorem engineEvent_worked (f : State → State) (s : State) : Worked (f s) (engineEvent f s) := by
  by_cases h : planChanges s.engine (f s).engine = []
  · rw [engineEvent_nil h]
    exact .refl _
  · rw [engineEvent_some h]
    exact takePlanClaims_worked _ _

theorem engineEvent_beside (f : State → State) (s : State) : Beside (f s) (engineEvent f s) := (engineEvent_worked f s).toBeside

theorem takePlanClaims_quiet (changes : List (Nat × Option PlanKind)) (hs : SoundTables s) :
    (takePlanClaims changes s).tables = s.tables ∧ (takePlanClaims changes s).faultUnit = s.faultUnit :=
  let h := choiceEvent_quiet (indices 128 fun z => changes.any fun c => decide (c.1 = z))
    (s := s.onArbiter fun a => { a with planClaims := changes.foldl (fun p c => p.set c.1 c.2) a.planClaims }) hs
  ⟨h.tables, h.faultUnit⟩

/-- With sound tables the hand-over queues nothing. -/
theorem engineEvent_faultUnit (hs : SoundTables (f s)) : (engineEvent f s).faultUnit = (f s).faultUnit := by
  by_cases h : planChanges s.engine (f s).engine = []
  · rw [engineEvent_nil h]
  · rw [engineEvent_some h]
    exact (takePlanClaims_quiet _ hs).2

theorem engineEvent_planClaim (hz : z < 128) (h : s.engine.planClaim z ≠ (f s).engine.planClaim z) :
    (engineEvent f s).arbiter.planClaims.get z = (f s).engine.planClaim z := by
  have hmem : (z, (f s).engine.planClaim z) ∈ planChanges s.engine (f s).engine := mem_planChanges.mpr ⟨hz, h, rfl⟩
  rw [engineEvent_some (List.ne_nil_of_mem hmem), takePlanClaims_planClaims]
  refine get_foldl_set_changed _ hz ⟨_, hmem, rfl⟩ fun c hc hcz => ?_
  rw [(mem_planChanges.mp hc).2.2, hcz]

theorem engineEvent_engine (f : State → State) (s : State) : (engineEvent f s).engine = (f s).engine :=
  (engineEvent_beside f s).engine

theorem engineEvent_hand (h : HandFor q (f s)) : HandFor q (engineEvent f s) := h.of_router (engineEvent_beside f s).places

/-! ### A control that names an incident (R61) -/

theorem findIncident_first {f : Incident → Bool} {l : List Incident} (hi : l[p]? = some i) (hf : f i = true)
    (hbefore : ∀ x < p, ∀ j, l[x]? = some j → f j = false) : findIncident f l = some p := by
  induction l generalizing p with
  | nil => cases hi
  | cons a l ih =>
    unfold findIncident
    cases p with
    | zero =>
      obtain rfl : a = i := by simpa using hi
      exact if_pos hf
    | succ p =>
      have hrest : findIncident f l = some p := ih hi fun x hx j hj => hbefore (x + 1) (by omega) j hj
      rw [hbefore 0 (by omega) a rfl, hrest]
      rfl

theorem findIncident_of_none {f : Incident → Bool} {l : List Incident} (h : ∀ i ∈ l, f i = false) : findIncident f l = none := by
  induction l with
  | nil => rfl
  | cons a l ih =>
    unfold findIncident
    rw [h a (by simp), ih fun i hi => h i (by simp [hi])]
    rfl

/-- The incident at position `p` is the first with the id `id`. -/
structure Named (id p : Nat) (i : Incident) (s : State) : Prop where
  incident : s.incident p = some i
  named : i.id = id
  first : ∀ x < p, ∀ j, s.incident x = some j → j.id ≠ id

theorem Named.of_engine (h : Named id p i s) (hengine : t.engine = s.engine) : Named id p i t := by
  have hsame (x : Nat) : t.incident x = s.incident x := by rw [State.incident, State.incident, hengine]
  exact ⟨(hsame p).trans h.incident, h.named, fun x hx j hj => h.first x hx j ((hsame x).symm.trans hj)⟩

theorem onNamed_missing {f : Nat → Incident → State → State × Status} (h : ∀ i ∈ s.engine.incidents, i.id ≠ id) :
    onNamed id f s = (s, some (.notFound, [byte id])) := by
  unfold onNamed
  rw [findIncident_of_none fun i hi => decide_eq_false (h i hi)]

theorem onNamed_found {f : Nat → Incident → State → State × Status} {status : Status} (h : Named id p i s)
    (hf : f p i s = (v, status)) : onNamed id f s = (v, some (status, [byte id])) := by
  unfold onNamed
  rw [findIncident_first h.incident (decide_eq_true h.named) fun x hx j hj => decide_eq_false (h.first x hx j hj)]
  dsimp only
  rw [h.incident]
  dsimp only
  rw [hf]

/-- The state with a place reserved for the command in hand, once the sender's authority has been looked up. -/
def taken (q : Sender) (s : State) : State := reservePlace q (lookedUp q s)

theorem taken_engine (q : Sender) (s : State) : (taken q s).engine = s.engine := (lookedUp_worked q s).engine

theorem taken_frame (q : Sender) (s : State) : EngineFrame s (taken q s) where
  edit h := (lookedUp_worked q s).edit.trans h
  timer := (lookedUp_worked q s).timer
  sPort := (lookedUp_worked q s).sPort
  zPort := (lookedUp_worked q s).zPort
  arbiter := (lookedUp_beside q s).2.1
  fields := (lookedUp_worked q s).fields
  sound := (lookedUp_worked q s).sound
  hand x h := by
    obtain ⟨before, after, hplaces, hbefore⟩ := h
    refine ⟨before, after ++ [.reserved .command q], ?_, hbefore⟩
    show (lookedUp q s).router.places ++ _ = _
    rw [(lookedUp_beside q s).1, hplaces, List.append_assoc, List.cons_append]

theorem taken_hand (h : HandLaw s.router) : HandFor q (taken q s) := handFor_reservePlace (handLaw_lookedUp h q) q

theorem taken_sound (hs : SoundTables s) : taken q s = reservePlace q s := congrArg (reservePlace q) (lookedUp_sound hs)

theorem taken_demand (h : DemandLaw s.engine) : DemandLaw (taken q s).engine := by
  rw [taken_engine]
  exact h

/-- A control that the engine refuses changes nothing but the answer's place. -/
theorem control_refused {type : Nat} {status : Status} {f : Nat → Incident → State → State × Status} (h : Heard q .operate s)
    (hnamed : Named id p i s) (hf : ∀ t, f p i t = (t, status)) :
    namedControl type f q id s = answered q (.response type status [byte id]) (lookedUp q s) :=
  h.request_refused (onNamed_found (hnamed.of_engine (taken_engine q s)) (hf _))

theorem control_missing {type : Nat} {f : Nat → Incident → State → State × Status} (h : Heard q .operate s)
    (hmissing : ∀ i ∈ s.engine.incidents, i.id ≠ id) :
    namedControl type f q id s = answered q (.response type .notFound [byte id]) (lookedUp q s) :=
  h.request_refused (onNamed_missing (s := taken q s) (by rwa [taken_engine]))

/-- A control taken as an event of the engine. -/
theorem control_taken {type : Nat} {status : Status} {f : Nat → Incident → State → State × Status} (h : Heard q .operate s)
    (hnamed : Named id p i s) (hf : f p i (taken q s) = (v, status)) :
    namedControl type f q id s = giveAnswer .command (.response type status [byte id]) v :=
  h.request_worked (onNamed_found (hnamed.of_engine (taken_engine q s)) hf)

/-! ### HOLD (R63) -/

/-- The record in another state. -/
def Incident.inState (state : IncidentState) (i : Incident) : Incident := { i with state := state }

/-- The record at position `p` stands as `j`, and the notice `n` has been handed over. -/
def recorded (p : Nat) (j : Incident) (n : Notice) (s : State) : State :=
  { s with
    engine := { s.engine with incidents := s.engine.incidents.set p j }
    faultUnit := FaultUnit.take n s.faultUnit }

theorem notify_onIncident (n : Notice) (f : Incident → Incident) (h : s.incident p = some i) :
    notify n (onIncident p f s) = recorded p (f i) n s := by
  unfold onIncident State.onEngine
  dsimp only
  rw [modifyAt_eq h]
  rfl

theorem holdIncident_active (hi : s.incident p = some i) (h : i.state = .active) :
    holdIncident p i s = (recorded p (i.inState .held) (.incident i.id .held) s, .ok) :=
  (if_pos h).trans (by rw [notify_onIncident _ _ hi]; rfl)

theorem holdIncident_other (h : i.state ≠ .active) (s : State) : holdIncident p i s = (s, .badState) := if_neg h

theorem resumeIncident_other (h : i.state ≠ .held) (s : State) : resumeIncident p i s = (s, .badState) := if_neg h

/-- A control that leaves the record `j` and one notice behind. -/
theorem control_recorded {type : Nat} {f : Nat → Incident → State → State × Status} {news : IncidentNews}
    (h : Heard q .operate s) (hnamed : Named id p i s)
    (hf : f p i (taken q s) = (recorded p j (.incident i.id news) (taken q s), .ok)) :
    namedControl type f q id s =
      answered q (.response type .ok [byte id]) (recorded p j (.incident id news) (lookedUp q s)) := by
  have howner := onNamed_found (hnamed.of_engine (taken_engine q s)) hf
  rw [hnamed.named] at howner
  exact h.request_answered howner (congrArg Router.places (lookedUp_beside q s).1)

/-! ### RESUME (R64) -/

/-- The work of RESUME on the record at position `p`. -/
def resumed (p : Nat) (i : Incident) (s : State) : State :=
  dueCheck p dueFuel (notify (.incident i.id .active) (onIncident p (Incident.inState .active) s))

theorem resumeIncident_held (h : i.state = .held) (s : State) :
    resumeIncident p i s = (engineEvent (resumed p i) s, .ok) := if_pos h

theorem FaultWork.after {l : Incident} (h : RecordWork p l false s t) (g : FaultWork p i j t u) : FaultWork p i j s u := by
  obtain ⟨fault, hwork, hfault, hnone⟩ := g
  exact ⟨fault, Bool.false_or fault ▸ h.trans hwork, hfault, fun hs => hnone fun r => (h.sound r).mpr (hs r)⟩

theorem resumed_work (hi : s.incident p = some i) : FaultWork p (i.inState .active)
    (Incident.dueSteps s 256 (i.inState .active)) s (resumed p i s) := by
  have hactive := RecordWork.onIncident (Incident.inState .active) hi
  have hnotified := hactive.trans (.notify (.incident i.id .active) (hactive.incident hi))
  have hdue := dueCheck_work (hnotified.incident hi) dueFuel
  rw [hnotified.dueSteps] at hdue
  exact hdue.after hnotified

theorem resumed_engineOnly (hs : SoundTables s) (hi : s.incident p = some i) :
    (resumed p i s).faultUnit = FaultUnit.take (.incident i.id .active) s.faultUnit ∧ (resumed p i s).tables = s.tables := by
  have hactive := RecordWork.onIncident (Incident.inState .active) hi
  have hnotified := hactive.trans (.notify (.incident i.id .active) (hactive.incident hi))
  unfold resumed
  rw [dueCheck_engineOnly (fun r => (hnotified.sound r).mpr (hs r)) (hnotified.incident hi)]
  exact ⟨rfl, rfl⟩

theorem Kept.resumed {x : Reach} {D : Zones} (hx : x.engine) : Kept x D s D (resumed p i s) :=
  ((Kept.onIncident hx).trans (.notify _)).trans (.dueCheck hx _)

theorem resumed_none (hi : s.incident p = some i) (h : i.nextStep = none) :
    resumed p i s = recorded p (i.inState .active) (.incident i.id .active) s := by
  unfold resumed
  rw [notify_onIncident _ _ hi]
  exact dueCheck_none (incident_set_self (j := i.inState .active) hi rfl) h dueFuel

theorem resumed_unsound (hi : s.incident p = some i) (hk : i.nextStep = some k) (h : ¬Sound s (stepRef k)) :
    RecordWork p (i.inState .active).faulted true s (resumed p i s) := by
  have hactive := RecordWork.onIncident (Incident.inState .active) hi
  have hnotified := hactive.trans (.notify (.incident i.id .active) (hactive.incident hi))
  have hused := hnotified.trans (.useEntry (stepRef k) (hnotified.incident hi))
  unfold resumed
  rw [show dueFuel = 255 + 1 from rfl, dueCheck_unsound (hnotified.incident hi) hk (mt (hnotified.sound _).mp h)]
  exact hused.trans (.planFault (hused.incident hi))

/-- What a control that ends in an event of the engine leaves, as the engine's work `w` on the state taken left it. -/
theorem eventAnswered (f : State → State) (hhand : HandFor q (f s)) (body : AnswerBody) :
    AnswerQueued q body (giveAnswer .command body (engineEvent f s)) ∧
      (giveAnswer .command body (engineEvent f s)).engine = (f s).engine :=
  ⟨(engineEvent_hand hhand).answered body, engineEvent_engine f s⟩

/-! ### ADVANCE (R65) -/

/-- The record with its elapsed time raised to the delay of step `k`. -/
def Incident.raisedElapsed (s : State) (k : Nat) (i : Incident) : Incident :=
  { i with elapsed := max i.elapsed (s.tables.fields.steps.get k).delay }

theorem advanceStep_work (hi : s.incident p = some i) : RecordWork p
    (if i.appliesWhole s k = true then (i.withStep s k).raisedElapsed s k else i.withStep s k)
    (!i.appliesWhole s k) s (advanceStep p k s) := by
  obtain ⟨hwork, hresult⟩ := applyStep_work (k := k) hi
  unfold advanceStep
  rcases happly : applyStep p k s with ⟨t, _ | _⟩
  all_goals rw [happly] at hwork hresult; rw [← hresult] at hwork ⊢
  · exact hwork
  · exact hwork.trans (.onIncident (Incident.raisedElapsed s k) (hwork.incident hi))

theorem advanceIncident_none (h : i.nextStep = none) (s : State) : advanceIncident p i s = (s, .badState) := by
  unfold advanceIncident
  rw [h]

theorem advanceIncident_confirming (h : i.state.isConfirming = true) (s : State) : advanceIncident p i s = (s, .badState) := by
  unfold advanceIncident
  split
  · rfl
  · exact if_pos h

theorem advanceIncident_some (hk : i.nextStep = some k) (h : i.state.isConfirming = false) (s : State) :
    advanceIncident p i s = (engineEvent (advanceStep p k) s, .ok) := by
  unfold advanceIncident
  rw [hk]
  exact if_neg (by simp [h])

/-- A part of work done after the command has been taken is work done on the state before it. -/
theorem RecordWork.taken {f : Bool} (hi : s.incident p = some i) (h : RecordWork p j f (taken q s) t) :
    RecordWork p j f s t := Bool.false_or f ▸ (RecordWork.of_frame (taken_frame q s) (taken_engine q s) hi).trans h

theorem incident_taken (hi : s.incident p = some i) : (taken q s).incident p = some i :=
  (congrArg (fun e : Engine => e.incidents[p]?) (taken_engine q s)).trans hi

/-- An officer's step, answered OK. -/
theorem advance_taken (h : Heard q .operate s) (hnamed : Named id p i s) (hk : i.nextStep = some k)
    (hstate : i.state.isConfirming = false) : ∃ t, Leaves (.advance q id) s t ∧ AnswerQueued q (.response 16 .ok [byte id]) t ∧
      t.incident p = some
        (if i.appliesWhole s k = true then (i.withStep s k).raisedElapsed s k else i.withStep s k) ∧
      (∀ x, x ≠ p → t.incident x = s.incident x) ∧ t.engine.general = generalAfter s (i.appliesWhole s k = false) := by
  have hwork := advanceStep_work (k := k) (incident_taken (q := q) hnamed.incident)
  have hwhole : i.appliesWhole (taken q s) k = i.appliesWhole s k := (taken_frame q s).appliesWhole k i
  have helapsed : (i.withStep s k).raisedElapsed (taken q s) k = (i.withStep s k).raisedElapsed s k := by
    rw [Incident.raisedElapsed, Incident.raisedElapsed, (taken_frame q s).fields]
  rw [hwhole, (taken_frame q s).withStep, helapsed] at hwork
  have hhand := hwork.hand q (taken_hand h.hand)
  replace hwork := hwork.taken hnamed.incident
  obtain ⟨hanswered, hengine⟩ := eventAnswered (advanceStep p k) hhand
    (.response 16 .ok [byte id])
  refine ⟨_, congrArg settled (control_taken h hnamed (advanceIncident_some hk hstate _)), hanswered, ?_, fun x hx => ?_, ?_⟩
  · exact incident_set_self hnamed.incident ((congrArg Engine.incidents hengine).trans hwork.incidents)
  · exact incident_set_other hx ((congrArg Engine.incidents hengine).trans hwork.incidents)
  · refine (congrArg Engine.general hengine).trans (hwork.general.trans (generalAfter_congr ?_))
    simp

/-- RESUME taken: the record as the due check leaves it, and what the event does beside it. -/
theorem resume_taken (h : Heard q .operate s) (hnamed : Named id p i s) (hheld : i.state = .held) : ∃ t,
    Leaves (.resume q id) s t ∧ AnswerQueued q (.response 15 .ok [byte id]) t ∧
      t.engine = (resumed p i (taken q s)).engine ∧
      (i.nextStep = none → t = answered q (.response 15 .ok [byte id])
        (recorded p (i.inState .active) (.incident id .active) (lookedUp q s))) ∧
      (SoundTables s → t.faultUnit = FaultUnit.take (.incident id .active) s.faultUnit) := by
  have hi := incident_taken (q := q) hnamed.incident
  obtain ⟨fault, hwork, -⟩ := resumed_work hi
  have hcontrol := control_taken (type := 15) h hnamed (resumeIncident_held hheld (taken q s))
  obtain ⟨hanswered, hengine⟩ := eventAnswered (resumed p i) (hwork.hand q (taken_hand h.hand)) (.response 15 .ok [byte id])
  refine ⟨_, congrArg settled hcontrol, hanswered, hengine, fun hnone => ?_, fun hs => ?_⟩
  · have hresumed := resumed_none hi hnone
    rw [engineEvent_unchanged (by rw [hresumed]; rfl) (by rw [hresumed]; rfl), hresumed, hnamed.named]
    exact giveAnswer_reserved (s := recorded p (i.inState .active) (.incident id .active) (lookedUp q s))
      (handLaw_lookedUp h.hand q)
  · have hsound : SoundTables (taken q s) := fun r => ((taken_frame q s).sound r).mpr (hs r)
    obtain ⟨hunit, htables⟩ := resumed_engineOnly hsound hi
    refine (engineEvent_faultUnit ((soundTables_congr htables).mpr hsound)).trans ?_
    rw [hunit, hnamed.named, taken_sound hs]
    rfl

/-- Settles O37. -/
theorem holdResumeAndAdvance : Obligations.HoldResumeAndAdvance := by
  refine ⟨fun q id s h => ⟨fun hmissing => ?missing, fun p i hi hid hfirst => ?_⟩,
    fun q id p i s h hi hid hfirst => ?_⟩
  case missing =>
    exact ⟨congrArg settled (control_missing h hmissing), congrArg settled (control_missing h hmissing),
      congrArg settled (control_missing h hmissing), congrArg settled (control_missing h hmissing)⟩
  case refine_1 =>
    have hnamed : Named id p i s := ⟨hi, hid, hfirst⟩
    refine ⟨fun hactive => congrArg settled (control_recorded h hnamed ?_),
      fun hother => congrArg settled (control_refused h hnamed (holdIncident_other hother)),
      fun hother => congrArg settled (control_refused h hnamed (resumeIncident_other hother)), fun hheld => ?_⟩
    · exact holdIncident_active (incident_taken hi) hactive
    obtain ⟨t, hleaves, hanswered, hengine, hnone, hunit⟩ := resume_taken h hnamed hheld
    obtain ⟨fault, hwork, hfault, hsound⟩ := resumed_work (incident_taken (q := q) hi)
    rw [(taken_frame q s).dueSteps] at hwork hfault
    have hkept := StepKept.dueSteps s 256 (i.inState .active)
    replace hwork := hwork.taken hi
    have hincidents : t.engine.incidents = _ := (congrArg Engine.incidents hengine).trans hwork.incidents
    have hgeneral : t.engine.general = _ := (congrArg Engine.general hengine).trans hwork.general
    refine ⟨t, _, hleaves, incident_set_self hi hincidents, hkept.state, hkept.elapsed, hkept.id.trans hid, hanswered,
      hnone, hincidents, rfl, fun hfree => ?_, fun hs => ⟨?_, ?_, fun hlaw => ?_, hunit hs⟩, fun k hk hunsound => ?_⟩
    · rw [hgeneral, hfault hfree]
    · rw [hgeneral, hsound fun r => ((taken_frame q s).sound r).mpr (hs r)]
      exact generalAfter_not Bool.false_ne_true
    · exact (congrArg Engine.idCounter hengine).trans hwork.idCounter
    · rw [hengine]
      exact ((Kept.resumed (x := .all) (D := .empty) trivial).demand (taken_demand hlaw)).formed
    · have hs : ¬Sound s (stepRef k) := mt ((lookedUp_worked q s).sound (stepRef k)).mpr hunsound
      rw [dueSteps_unsound (i := i.inState .active) hk hs, hengine, (resumed_unsound (incident_taken hi) hk hunsound).general,
        generalAfter_of rfl]
      exact ⟨rfl, rfl, rfl, nofun⟩
  case refine_2 =>
    have hnamed : Named id p i s := ⟨hi, hid, hfirst⟩
    intro refused
    have hrefused (hf : ∀ t, advanceIncident p i t = (t, .badState)) : refused :=
      congrArg settled (control_refused h hnamed hf)
    refine ⟨fun hnone => hrefused (advanceIncident_none hnone),
      fun deadline hstate => hrefused (advanceIncident_confirming (by rw [hstate]; rfl)), fun k hstate hk => ?_⟩
    have hstate : i.state.isConfirming = false := by rcases hstate with hstate | hstate <;> rw [hstate] <;> rfl
    obtain ⟨t, hleaves, hanswered, hincident, hothers, hgeneral⟩ := advance_taken h hnamed hk hstate
    intro e
    refine ⟨⟨t, hleaves, hanswered, ?_, hothers, hgeneral⟩, fun hs => ?_, fun hunsound => ?_⟩
    · rw [hincident]
      split
      · rw [Incident.raisedElapsed, (StepKept.withStep s k i).elapsed]
      · rfl
    · have hwhole := Incident.appliesWhole_sound hs k i
      have hkept := StepKept.withStep s k i
      rw [if_pos hwhole] at hincident
      rw [generalAfter_not (by simp [hwhole])] at hgeneral
      refine ⟨t, _, hleaves, hincident, hkept.state, ?_, ?_, ?_, ?_, hothers, hgeneral, hanswered⟩
      · rw [Incident.raisedElapsed, hkept.elapsed]
      · rw [withStep_whole hwhole]
        rfl
      · rw [withStep_whole hwhole]
        rfl
      · rw [Incident.raisedElapsed, hkept.elapsed]
    · obtain ⟨hread, hnot⟩ := storeysRead_of_unsound (i := i) (.inl hunsound)
      rw [if_neg (by simp [hnot])] at hincident
      refine ⟨t, _, hleaves, hincident, ?_⟩
      rw [withStep_stopped hnot, Incident.raisedBy, hread, storeyZones, List.flatMap_nil, raisedTo_nil, hgeneral,
        generalAfter_of hnot]
      exact ⟨rfl, rfl, rfl, rfl, nofun, hanswered⟩

end Sys2Proof.Machine
end

section
/-! SUPPORT. GENERAL set by an event, and RESET INCIDENT, EVACUATE ALL and RESET ALL (R66 to R71, R74). -/

namespace Sys2Proof.Machine

variable {s t u v w : State} {p z id : Nat} {i j : Incident} {q : Sender} {f : State → State} {cause : GeneralCause}

/-! ### GENERAL set by an event (R44, R70) -/

theorem answerEnded_faultUnit (e : Edit) (s : State) : (answerEnded e s).faultUnit = s.faultUnit := by
  unfold answerEnded
  split <;> rfl

theorem breakEdit_faultUnit (s : State) : (breakEdit s).faultUnit =
    if s.tables.edit.isSome then FaultUnit.take (.editEnded .broken) s.faultUnit else s.faultUnit := by
  rcases h : s.tables.edit with _ | e
  · rw [breakEdit_none h]
    rfl
  · rw [breakEdit_some h, answerEnded_faultUnit]
    rfl

theorem askGeneral_edit (cause : GeneralCause) (h : s.engine.general = none) : (askGeneral cause s).tables.edit = none := by
  rw [askGeneral_eq cause h]
  exact breakEdit_edit _

theorem askGeneral_faultUnit (cause : GeneralCause) (h : s.engine.general = none) : (askGeneral cause s).faultUnit =
    if s.tables.edit.isSome then FaultUnit.take (.editEnded .broken) (FaultUnit.take (.general true cause) s.faultUnit)
    else FaultUnit.take (.general true cause) s.faultUnit := by
  rw [askGeneral_eq cause h]
  exact breakEdit_faultUnit _

theorem withGeneral_demand (cause : GeneralCause) (e : Engine) (hz : z < 128) :
    (e.withGeneral cause).demand.get z = .evacuate := Tab.get_mapIdx _ _ hz

theorem withGeneral_allClear (cause : GeneralCause) (e : Engine) (hz : z < 128) (h : e.demand.get z ≠ .evacuate) :
    (e.withGeneral cause).allClear.get z = 0 := by
  refine (Tab.get_mapIdx _ _ hz).trans ?_
  have hrise : (e.demand.get z).rank < Demand.evacuate.rank := by
    rcases hd : e.demand.get z
    · decide
    · decide
    · exact absurd hd h
  exact if_pos hrise

theorem planClaim_of_evacuate {e : Engine} (h : e.demand.get z = .evacuate) : e.planClaim z = some .evacuate := by
  rw [Engine.planClaim, h]
  rfl

/-- An event whose work is to ask for GENERAL at `w`, which differs from its start `s` by entries used and notices alone, sets
GENERAL. -/
theorem generalSet_of_ask (hclear : s.engine.general = none) (hframe : EngineFrame s w) (hengine : w.engine = s.engine)
    (hedit : w.tables.edit = s.tables.edit) (hunit : SoundTables s → w.faultUnit = u.faultUnit)
    (hf : f s = askGeneral cause w) : GeneralSet cause u.faultUnit s (engineEvent f s) := by
  have hbeside := engineEvent_beside f s
  have hclear' : w.engine.general = none := (congrArg Engine.general hengine).trans hclear
  have hset : (engineEvent f s).engine = s.engine.withGeneral cause := by
    rw [hbeside.engine, hf, askGeneral_sets cause hclear', hengine]
  have hasked := hframe.trans (.askGeneral cause w)
  rw [← hf] at hasked
  exact
    { general := congrArg Engine.general hset
      incidents := by
        rw [hset]
        rfl
      idCounter := by
        rw [hset]
        rfl
      demand := fun z hz => by
        rw [hset]
        exact withGeneral_demand cause s.engine hz
      allClear := fun z hz h => by
        rw [hset]
        exact withGeneral_allClear cause s.engine hz h
      planClaims := fun z hz h => by
        have hclaim : (f s).engine.planClaim z = some .evacuate := by
          rw [← hbeside.engine, hset]
          exact planClaim_of_evacuate (withGeneral_demand cause s.engine hz)
        rw [engineEvent_planClaim hz (by rw [hclaim]; exact h), hclaim]
      edit := by rw [hbeside.edit, hf, askGeneral_edit cause hclear']
      fields := hbeside.fields.trans hasked.fields
      timer := hbeside.timer.trans hasked.timer
      sPort := hbeside.sPort.trans hasked.sPort
      zPort := hbeside.zPort.trans hasked.zPort
      notices := fun hs => by
        rw [engineEvent_faultUnit fun r => (hasked.sound r).mpr (hs r), hf, askGeneral_faultUnit cause hclear', hunit hs,
          hedit] }

/-! ### Demand formed again after a reset (R67, R69, R74) -/

theorem falls_iff {q : Nat → Bool} {e : Engine} : e.falls q = true ↔
    ∃ z < 128, q z = true ∧ e.demand.get z ≠ .none ∧ e.formed z = .none := by
  simp [Engine.falls, and_assoc]

/-- What the demand formed again after a reset leaves of the engine `e`, `period` being the all-clear period. -/
structure Reformed (q : Nat → Bool) (period : Nat) (e g : Engine) : Prop where
  incidents : g.incidents = e.incidents
  general : g.general = e.general
  idCounter : g.idCounter = e.idCounter
  demand : ∀ z < 128, g.demand.get z = if q z then e.formed z else e.demand.get z
  allClear : ∀ z < 128, (q z = true → (e.formed z).rank ≤ (e.demand.get z).rank) →
    g.allClear.get z = if e.demand.get z ≠ .none ∧ g.demand.get z = .none then period else e.allClear.get z

theorem timerAfter_fall {old new : Demand} {period timer : Nat} {start : Option Nat} (hle : new.rank ≤ old.rank)
    (hstart : old ≠ .none → new = .none → start = some period) :
    timerAfter start old new timer = if old ≠ .none ∧ new = .none then period else timer := by
  unfold timerAfter
  rw [if_neg (Nat.not_lt.mpr hle)]
  split
  case isTrue h => rw [hstart h.1 h.2, Option.getD_some]
  case isFalse => rfl

theorem reformed_recompute {q : Nat → Bool} {period : Nat} {start : Option Nat} {e : Engine}
    (hstart : e.falls q = true → start = some period) : Reformed q period e (e.recompute q start) where
  incidents := rfl
  general := rfl
  idCounter := rfl
  demand z hz := Tab.get_mapIdx _ _ hz
  allClear z hz hle := by
    have hdemand : (e.recompute q start).demand.get z = if q z then e.formed z else e.demand.get z := Tab.get_mapIdx _ _ hz
    have hclear : (e.recompute q start).allClear.get z =
        if q z then timerAfter start (e.demand.get z) (e.formed z) (e.allClear.get z) else e.allClear.get z :=
      Tab.get_mapIdx _ _ hz
    rw [hdemand, hclear]
    rcases hq : q z
    · have : ¬(e.demand.get z ≠ .none ∧ e.demand.get z = .none) := fun h => h.1 h.2
      simp [this]
    · exact timerAfter_fall (hle hq) fun hold hnew => hstart (falls_iff.mpr ⟨z, hz, hq, hold, hnew⟩)

/-- The demand formed again after a reset uses the header alone, and only where a demand falls. -/
theorem recomputeAfterReset_work (q : Nat → Bool) (s : State) : EngineFrame s (recomputeAfterReset q s) ∧
    Reformed q (headerValue Header.allClearPeriod s) s.engine (recomputeAfterReset q s).engine ∧
    (recomputeAfterReset q s).tables.edit = s.tables.edit ∧
    (SoundTables s → (recomputeAfterReset q s).faultUnit = s.faultUnit) := by
  unfold recomputeAfterReset
  split
  case isTrue hfalls =>
    rw [readTiming_value]
    refine ⟨(EngineFrame.useEntry headerRef s).trans (.onEngine _ _), ?_, (useEntry_worked headerRef s).edit, fun hs => ?_⟩
    · have hengine : (headerUsed s).engine = s.engine := useEntry_engine headerRef s
      show Reformed _ _ _ ((headerUsed s).engine.recompute q _)
      rw [hengine]
      exact reformed_recompute fun _ => rfl
    · show (useEntry headerRef s).1.faultUnit = s.faultUnit
      rw [useEntry_sound (hs _)]
  case isFalse hfalls =>
    exact ⟨.onEngine _ s, reformed_recompute fun h => absurd h hfalls, rfl, fun _ => rfl⟩

/-! ### An incident removed (R52, R67) -/

theorem formedOf_eraseIdx_le (l : List Incident) (p z : Nat) : (formedOf (l.eraseIdx p) z).rank ≤ (formedOf l z).rank := by
  have hmax {a b c : Demand} (h : a.rank ≤ b.rank) : (c.max a).rank ≤ (c.max b).rank := by
    unfold Demand.max
    split <;> split <;> omega
  induction l generalizing p with
  | nil => exact Nat.le_refl _
  | cons a l ih =>
    cases p with
    | zero => exact (rank_le_max _ _).2
    | succ p => exact hmax (ih p)

theorem formed_removed_le (e : Engine) (p z : Nat) :
    (({ e with incidents := e.incidents.eraseIdx p } : Engine).formed z).rank ≤ (e.formed z).rank := by
  rw [formed_eq, formed_eq]
  show (if e.general.isSome then Demand.evacuate else _).rank ≤ _
  split
  · exact Nat.le_refl _
  · exact formedOf_eraseIdx_le _ p z

/-- The work of RESET INCIDENT on the incident at position `p`. -/
def removedReset (p : Nat) (i : Incident) (s : State) : State :=
  recomputeAfterReset (fun z => decide (i.demand.get z ≠ .none)) (notify (.incident i.id .removed) (removeIncident p s))

theorem removedReset_work (p : Nat) (i : Incident) (s : State) : EngineFrame s (removedReset p i s) ∧
    Reformed (fun z => decide (i.demand.get z ≠ .none)) (headerValue Header.allClearPeriod s)
      { s.engine with incidents := s.engine.incidents.eraseIdx p } (removedReset p i s).engine ∧
    (removedReset p i s).tables.edit = s.tables.edit ∧
    (SoundTables s → (removedReset p i s).faultUnit = FaultUnit.take (.incident i.id .removed) s.faultUnit) := by
  obtain ⟨hframe, hreformed, hedit, hunit⟩ := recomputeAfterReset_work (fun z => decide (i.demand.get z ≠ .none))
    (notify (.incident i.id .removed) (removeIncident p s))
  have hremoved : EngineFrame s (removeIncident p s) := .onEngine _ s
  exact ⟨(hremoved.trans (.notify _ _)).trans hframe, hreformed, hedit, hunit⟩

/-- An event done on the state that the command was taken in, and answered. -/
theorem event_answered {type : Nat} (f : State → State) (h : Heard q .operate s) (data : List Byte)
    (hframe : EngineFrame (taken q s) (f (taken q s))) :
    ∃ t, giveAnswer .command (.response type .ok data) (engineEvent f (taken q s)) = t ∧
      AnswerQueued q (.response type .ok data) t ∧ t.engine = (f (taken q s)).engine ∧
      t.tables.edit = (f (taken q s)).tables.edit ∧ t.sPort = s.sPort ∧ t.zPort = s.zPort ∧
      (SoundTables s → t.faultUnit = (f (reservePlace q s)).faultUnit) := by
  have hbeside := engineEvent_beside f (taken q s)
  have hall := (taken_frame q s).trans hframe
  refine ⟨_, rfl, (eventAnswered f (hframe.hand q (taken_hand h.hand)) _).1, hbeside.engine, hbeside.edit,
    hbeside.sPort.trans hall.sPort, hbeside.zPort.trans hall.zPort, fun hs => ?_⟩
  rw [← taken_sound hs]
  exact engineEvent_faultUnit fun r => (hall.sound r).mpr (hs r)

theorem taken_edit (q : Sender) (s : State) : (taken q s).tables.edit = s.tables.edit := (lookedUp_worked q s).edit

theorem taken_headerValue (f : Header → Nat) (q : Sender) (s : State) : headerValue f (taken q s) = headerValue f s :=
  (lookedUp_worked q s).toBeside.headerValue f

theorem resetIncident_taken (h : Heard q .operate s) (hlaw : DemandLaw s.engine) (hnamed : Named id p i s) :
    ∃ t, Leaves (.resetIncident q id) s t ∧ t.engine.incidents = s.engine.incidents.eraseIdx p ∧
      t.engine.general = s.engine.general ∧ t.engine.idCounter = s.engine.idCounter ∧
      (∀ z < 128, t.engine.demand.get z = t.engine.formed z) ∧
      (∀ z < 128, t.engine.allClear.get z =
        if s.engine.demand.get z ≠ .none ∧ t.engine.demand.get z = .none then headerValue Header.allClearPeriod s
        else s.engine.allClear.get z) ∧
      t.tables.edit = s.tables.edit ∧ t.sPort = s.sPort ∧ t.zPort = s.zPort ∧
      (SoundTables s → t.faultUnit = FaultUnit.take (.incident id .removed) s.faultUnit) ∧
      AnswerQueued q (.response 17 .ok [byte id]) t := by
  have hi := incident_taken (q := q) hnamed.incident
  obtain ⟨hframe, hreformed, hedit, hunit⟩ := removedReset_work p i (taken q s)
  have hlaws : DemandLaw (removedReset p i (taken q s)).engine :=
    (Kept.resetIncidentWork (x := .all) (D := .empty) trivial hi).demand (taken_demand hlaw)
  obtain ⟨t, ht, hanswered, hengine, hedit', hsPort, hzPort, hunit'⟩ :=
    event_answered (type := 17) (removedReset p i) h [byte id] hframe
  rw [taken_headerValue, taken_engine] at hreformed
  rw [← hengine] at hreformed hlaws
  refine ⟨t, congrArg settled ((control_taken h hnamed rfl).trans ht), hreformed.incidents, hreformed.general,
    hreformed.idCounter, hlaws.formed, fun z hz => hreformed.allClear z hz fun _ => ?_,
    hedit'.trans (hedit.trans (taken_edit q s)), hsPort, hzPort, fun hs => ?_, hanswered⟩
  · show Demand.rank _ ≤ (s.engine.demand.get z).rank
    rw [hlaw.formed z hz]
    exact formed_removed_le s.engine p z
  · rw [hunit' hs, (removedReset_work p i (reservePlace q s)).2.2.2 hs, hnamed.named]
    rfl

/-! ### EVACUATE ALL and RESET ALL (R68, R69) -/

theorem whole_taken {type : Nat} (h : Heard q .operate s) (f : State → State) :
    wholeControl type f q s = giveAnswer .command (.response type .ok []) (f (taken q s)) := h.request_worked rfl

theorem evacuateAll_set (h : Heard q .operate s) (hset : s.engine.general ≠ none) :
    evacuateAllRequest q s = answered q (.response 18 .ok []) (lookedUp q s) := by
  have hasked : askGeneral .officer (taken q s) = taken q s := askGeneral_of_set .officer (by rwa [taken_engine])
  refine (whole_taken h evacuateAll).trans ?_
  rw [evacuateAll, engineEvent_unchanged (by rw [hasked]) (by rw [hasked]), hasked]
  exact giveAnswer_reserved (handLaw_lookedUp h.hand q)

theorem evacuateAll_clear (h : Heard q .operate s) (hclear : s.engine.general = none) :
    ∃ t, Leaves (.evacuateAll q) s t ∧ GeneralSet .officer (lookedUp q s).faultUnit (lookedUp q s) t ∧
      AnswerQueued q (.response 18 .ok []) t := by
  have hgeneral : GeneralSet .officer (taken q s).faultUnit (taken q s) (evacuateAll (taken q s)) :=
    generalSet_of_ask (by rwa [taken_engine]) (.refl _) rfl rfl (fun _ => rfl) rfl
  have hhand : HandFor q (askGeneral .officer (taken q s)) :=
    (EngineFrame.askGeneral .officer _).hand q (taken_hand h.hand)
  obtain ⟨hanswered, -⟩ := eventAnswered (askGeneral .officer) hhand (.response 18 .ok [])
  obtain ⟨general, incidents, idCounter, demand, allClear, planClaims, edit, fields, timer, sPort, zPort, notices⟩ := hgeneral
  exact ⟨_, congrArg settled (whole_taken h evacuateAll),
    ⟨general, incidents, idCounter, demand, allClear, planClaims, edit, fields, timer, sPort, zPort, notices⟩, hanswered⟩

theorem foldl_notify (ns : List Notice) (s : State) :
    ns.foldl (fun t n => notify n t) s = { s with faultUnit := noticesTaken ns s.faultUnit } := by
  induction ns generalizing s with
  | nil => rfl
  | cons n ns ih => exact ih (notify n s)

/-- The work of RESET ALL. -/
def allReset (s : State) : State := recomputeAfterReset (fun _ => true) (clearGeneral (removeAll s))

theorem allReset_work (s : State) : EngineFrame s (allReset s) ∧
    Reformed (fun _ => true) (headerValue Header.allClearPeriod s) s.engine.emptied (allReset s).engine ∧
    (allReset s).tables.edit = s.tables.edit ∧
    (SoundTables s → (allReset s).faultUnit = noticesTaken s.resetNotices s.faultUnit) := by
  unfold allReset
  rw [clearGeneral_removeAll, foldl_notify]
  have hnotified : EngineFrame s { s with faultUnit := noticesTaken s.resetNotices s.faultUnit } := { EngineFrame.refl s with }
  obtain ⟨hframe, hreformed, hedit, hunit⟩ := recomputeAfterReset_work (fun _ => true)
    (State.onEngine { s with faultUnit := noticesTaken s.resetNotices s.faultUnit } Engine.emptied)
  exact ⟨(hnotified.trans (.onEngine _ _)).trans hframe, hreformed, hedit, hunit⟩

theorem emptied_formed (e : Engine) (z : Nat) : e.emptied.formed z = .none := rfl

theorem resetAll_taken (h : Heard q .operate s) : ∃ t, Leaves (.resetAll q) s t ∧ t.engine.incidents = [] ∧
    t.engine.general = none ∧ t.engine.idCounter = s.engine.idCounter ∧
    (∀ z < 128, t.engine.demand.get z = .none ∧ t.engine.allClear.get z =
      if s.engine.demand.get z = .none then s.engine.allClear.get z else headerValue Header.allClearPeriod s) ∧
    t.tables.edit = s.tables.edit ∧ t.sPort = s.sPort ∧ t.zPort = s.zPort ∧
    (SoundTables s → t.faultUnit = noticesTaken s.resetNotices s.faultUnit) ∧
    AnswerQueued q (.response 19 .ok []) t := by
  obtain ⟨hframe, hreformed, hedit, hunit⟩ := allReset_work (taken q s)
  obtain ⟨t, ht, hanswered, hengine, hedit', hsPort, hzPort, hunit'⟩ := event_answered (type := 19) allReset h [] hframe
  rw [taken_headerValue, taken_engine] at hreformed
  rw [← hengine] at hreformed
  have hdemand : ∀ z < 128, t.engine.demand.get z = .none := fun z hz =>
    (hreformed.demand z hz).trans (emptied_formed s.engine z)
  refine ⟨t, congrArg settled ((whole_taken h resetAll).trans ht), hreformed.incidents, hreformed.general,
    hreformed.idCounter, fun z hz => ⟨hdemand z hz, ?_⟩, hedit'.trans (hedit.trans (taken_edit q s)), hsPort, hzPort,
    fun hs => ?_, hanswered⟩
  · rw [hreformed.allClear z hz fun _ => by rw [emptied_formed]; exact Nat.zero_le _, hdemand z hz]
    by_cases hold : s.engine.demand.get z = .none
    · rw [if_neg fun h => h.1 hold, if_pos hold]
      rfl
    · rw [if_pos ⟨hold, rfl⟩, if_neg hold]
  · exact (hunit' hs).trans ((allReset_work (reservePlace q s)).2.2.2 hs)

/-- Settles O38. -/
theorem resetsAndEvacuateAll : Obligations.ResetsAndEvacuateAll :=
  ⟨fun _ _ _ _ _ h hlaw hi hid hfirst => resetIncident_taken h hlaw ⟨hi, hid, hfirst⟩,
    fun _ _ h => ⟨fun hset => congrArg settled (evacuateAll_set h hset), evacuateAll_clear h, resetAll_taken h⟩⟩

end Sys2Proof.Machine
end

section
/-! SUPPORT. RESTORE, DFAULT, the expiry of a confirm window, the end of an all-clear timer and the hand-over of plan claims
(R35, R37, R38, R52, R73, R75). -/

namespace Sys2Proof.Machine

variable {s t u : State} {p z d id : Nat} {i j : Incident}

/-! ### Reports that touch one record or the Fault List (R35 to R38) -/

theorem inDzList_iff {i : Incident} : (i.dzList.any fun e => decide (e.1 = d)) = true ↔ d ∈ i.dzList.map Prod.fst := by
  simp

theorem restore_missing (h : ∀ i ∈ s.engine.incidents, d ∉ i.dzList.map Prod.fst) : restore d s = s := by
  unfold restore
  rw [findIncident_of_none fun i hi => Bool.eq_false_iff.mpr (mt inDzList_iff.mp (h i hi))]

/-- The record with detection zone `d` restored. -/
def Incident.restored (d : Nat) (i : Incident) : Incident :=
  { i with dzList := i.dzList.map fun e => if e.1 = d then (d, .restored) else e }

theorem restore_listed (hi : s.incident p = some i) (hd : d ∈ i.dzList.map Prod.fst)
    (hfirst : ∀ x < p, ∀ j, s.incident x = some j → d ∉ j.dzList.map Prod.fst) :
    restore d s = { s with engine := { s.engine with incidents := s.engine.incidents.set p (i.restored d) } } := by
  unfold restore
  rw [findIncident_first hi (inDzList_iff.mpr hd) fun x hx j hj => Bool.eq_false_iff.mpr (mt inDzList_iff.mp (hfirst x hx j hj))]
  have hmodified : modifyAt (Incident.restored d) p s.engine.incidents = s.engine.incidents.set p (i.restored d) :=
    modifyAt_eq hi
  rw [← hmodified]
  rfl

/-! ### An incident that expires (R52) -/

/-- Demand formed again with no rise leaves the timers. -/
theorem recompute_allClear {q : Nat → Bool} {e : Engine} (hz : z < 128)
    (hle : q z = true → (e.formed z).rank ≤ (e.demand.get z).rank) : (e.recompute q none).allClear.get z = e.allClear.get z := by
  refine (Tab.get_mapIdx _ _ hz).trans ?_
  rcases hq : q z
  · rfl
  · show timerAfter none (e.demand.get z) (e.formed z) (e.allClear.get z) = _
    unfold timerAfter
    rw [if_neg (Nat.not_lt.mpr (hle hq))]
    split <;> rfl

/-- The engine once the incident at position `p`, of demand `v`, has expired. -/
def Engine.expired (p : Nat) (v : Tab Demand 128) (e : Engine) : Engine :=
  Engine.recompute (fun z => decide (v.get z ≠ .none)) none { e with incidents := e.incidents.eraseIdx p }

theorem expireIncident_eq (hi : s.incident p = some i) : expireIncident p s =
    { s with engine := s.engine.expired p i.demand, faultUnit := FaultUnit.take (.incident i.id .removed) s.faultUnit } := by
  unfold expireIncident
  rw [hi]
  rfl

theorem expired_allClear {e : Engine} {v : Tab Demand 128} (h : DemandLaw e) (hz : z < 128) :
    (e.expired p v).allClear.get z = e.allClear.get z := by
  refine recompute_allClear hz fun _ => ?_
  show _ ≤ (e.demand.get z).rank
  rw [h.formed z hz]
  exact formed_removed_le e p z

theorem expireNamed_none (h : ∀ i ∈ s.engine.incidents, i.id = id → i.state ≠ .confirming 0) : expireNamed id s = s := by
  unfold expireNamed
  rw [findIncident_of_none fun i hi => by simpa using h i hi]

theorem expireNamed_some (hi : s.incident p = some i) (hid : i.id = id) (hstate : i.state = .confirming 0)
    (hfirst : ∀ x < p, ∀ j, s.incident x = some j → j.id ≠ id) : expireNamed id s = engineEvent (expireIncident p) s := by
  unfold expireNamed
  rw [findIncident_first hi (by simp [hid, hstate]) fun x hx j hj => by simp [hfirst x hx j hj]]

/-! ### Plan claims handed over (R73, R75) -/

theorem takePlanClaims_tested {changes : List (Nat × Option PlanKind)} (hs : SoundTables s) (hz : z < 128)
    (hmem : z ∈ changes.map Prod.fst) : PendingTested s (takePlanClaims changes s) := by
  refine PendingTested.choiceEvent (t := s.onArbiter fun a =>
    { a with planClaims := changes.foldl (fun p c => p.set c.1 c.2) a.planClaims }) hs (.of_claims rfl rfl) ?_
  refine List.ne_nil_of_mem (a := z) (mem_indices.mpr ⟨hz, ?_⟩)
  obtain ⟨c, hc, rfl⟩ := List.mem_map.mp hmem
  exact List.any_eq_true.mpr ⟨c, hc, decide_eq_true rfl⟩

theorem takePlanClaims_changed {changes : List (Nat × Option PlanKind)} {claim : Option PlanKind}
    (hnodup : (changes.map Prod.fst).Nodup) (hmem : (z, claim) ∈ changes) (hz : z < 128) :
    (takePlanClaims changes s).arbiter.planClaims.get z = claim := by
  rw [takePlanClaims_planClaims]
  refine get_foldl_set_changed _ hz ⟨_, hmem, rfl⟩ fun c hc hcz => ?_
  exact congrArg Prod.snd (eq_of_nodup_map hnodup hc hmem hcz)

theorem takePlanClaims_other {changes : List (Nat × Option PlanKind)} (h : z ∉ changes.map Prod.fst) :
    (takePlanClaims changes s).arbiter.planClaims.get z = s.arbiter.planClaims.get z := by
  rw [takePlanClaims_planClaims]
  exact get_foldl_set_unchanged _ _ fun c hc hcz => h (List.mem_map.mpr ⟨c, hc, hcz⟩)

theorem endAllClear_other (h : s.engine.planClaim z ≠ none ∨ s.arbiter.planClaims.get z ≠ some .allClear) :
    endAllClear z s = s := if_neg fun ⟨hnone, hclaim⟩ => h.elim (· hnone) (· hclaim)

/-- Settles O33. -/
theorem otherEngineEvents : Obligations.OtherEngineEvents := by
  refine ⟨fun d s => ⟨fun h => congrArg _ (restore_missing h),
      fun p i hi hd hfirst => congrArg _ (restore_listed hi hd hfirst),
      fun hd => ⟨congrArg _ (if_neg (Nat.not_lt.mpr hd)), congrArg _ (if_neg (Nat.not_lt.mpr hd))⟩,
      fun hd => ⟨congrArg _ (if_pos hd), congrArg _ (if_pos hd)⟩, fun event => rfl⟩,
    fun s => ⟨fun id h => congrArg settled (expireNamed_none h), fun id p i hlaw hi hid hstate hfirst => ?expired,
      fun z h => congrArg settled (endAllClear_other h), fun z hnone hclaim => ?allClear, fun changes hnodup => ?handover⟩⟩
  case expired =>
    have hexpire := expireIncident_eq hi
    have hengine : (engineEvent (expireIncident p) s).engine = s.engine.expired p i.demand := by
      rw [engineEvent_engine, hexpire]
    refine ⟨_, congrArg settled (expireNamed_some hi hid hstate hfirst), by rw [hengine]; rfl, by rw [hengine]; rfl,
      by rw [hengine]; rfl, fun z hz => ?_, ?_, fun hs => ?_⟩
    · rw [hengine]
      exact expired_allClear hlaw hz
    · rw [(engineEvent_beside _ s).edit, hexpire]
    · rw [engineEvent_faultUnit (by rw [hexpire]; exact hs), hexpire, hid]
  case allClear =>
    have hz : z < 128 := by
      refine Classical.byContradiction fun hge => ?_
      rw [Tab.get_beyond _ (Nat.not_lt.mp hge)] at hclaim
      cases hclaim
    have hended : endAllClear z s = takePlanClaims [(z, none)] s := if_pos ⟨hnone, hclaim⟩
    exact ⟨_, congrArg settled hended, takePlanClaims_changed (by simp) (by simp) hz,
      (takePlanClaims_worked _ s).toBeside, fun hs => takePlanClaims_tested hs hz (by simp),
      fun y _ hy => takePlanClaims_other (by simpa using hy)⟩
  case handover =>
    exact ⟨_, rfl, (takePlanClaims_worked changes s).toBeside, fun hs ⟨z, hz, hmem⟩ => takePlanClaims_tested hs hz hmem,
      fun z claim hmem hz => takePlanClaims_changed hnodup hmem hz, fun z _ hz => takePlanClaims_other hz⟩

end Sys2Proof.Machine
end

section
/-! SUPPORT. A FIRE report: GENERAL set by one that has no plan or no place, an incident joined, an incident created (R41 to R50). -/

namespace Sys2Proof.Machine

variable {s t u : State} {p z d k : Nat} {i j : Incident} {e : DetectionEntry}

/-! ### The ways of a FIRE (R42, R43, R50) -/

theorem fire_taken (hd : d ≤ 511) (s : State) : fire d s = engineEvent (takeFire d) s := if_neg (Nat.not_lt.mpr hd)

theorem takeFire_unmapped (h : ¬Sound s (detectionRef d) ∨ (s.tables.fields.detections.get d).mapped = false) :
    takeFire d s = askGeneral .unmapped (useEntry (detectionRef d) s).1 := by
  unfold takeFire
  rcases huse : useEntry (detectionRef d) s with ⟨t, _ | _⟩
  · rfl
  · have hsound : Sound s (detectionRef d) := by
      refine Classical.byContradiction fun hunsound => ?_
      have := useEntry_unsound hunsound
      rw [huse] at this
      cases this
    exact if_pos (h.resolve_left (not_not_intro hsound))

section Mapped

variable (hsound : Sound s (detectionRef d)) (hmapped : (s.tables.fields.detections.get d).mapped = true)
include hsound hmapped

theorem takeFire_join (h : findIncident (fun i => decide (i.origin = (s.tables.fields.detections.get d).storey))
    s.engine.incidents = some p) : takeFire d s = joinIncident p d s := by
  unfold takeFire
  rw [useEntry_sound hsound]
  dsimp only
  rw [if_neg (by simp [hmapped]), h]

theorem takeFire_full (h : ∀ i ∈ s.engine.incidents, i.origin ≠ (s.tables.fields.detections.get d).storey)
    (hfull : 8 ≤ s.engine.incidents.length) : takeFire d s = askGeneral .overflow (notify (.incidentOverflow d) s) := by
  unfold takeFire
  rw [useEntry_sound hsound]
  dsimp only
  rw [if_neg (by simp [hmapped]), findIncident_of_none fun i hi => decide_eq_false (h i hi)]
  exact if_pos hfull

theorem takeFire_create (h : ∀ i ∈ s.engine.incidents, i.origin ≠ (s.tables.fields.detections.get d).storey)
    (hroom : s.engine.incidents.length < 8) :
    takeFire d s = createIncident d (s.tables.fields.detections.get d) s := by
  unfold takeFire
  rw [useEntry_sound hsound]
  dsimp only
  rw [if_neg (by simp [hmapped]), findIncident_of_none fun i hi => decide_eq_false (h i hi)]
  exact if_neg (Nat.not_le.mpr hroom)

end Mapped

theorem engineEvent_of_engine {f : State → State} (h : (f s).engine = s.engine) : engineEvent f s = f s :=
  engineEvent_unchanged (congrArg Engine.demand h) (congrArg Engine.allClear h)

/-- A FIRE that asks for GENERAL where it is set already leaves what came before. -/
theorem fire_asked {cause : GeneralCause} (hd : d ≤ 511) (hf : takeFire d s = askGeneral cause u)
    (hengine : u.engine = s.engine) (hset : s.engine.general ≠ none) : fire d s = u := by
  have hasked : askGeneral cause u = u := askGeneral_of_set cause (by rwa [hengine])
  rw [hasked] at hf
  rw [fire_taken hd, engineEvent_of_engine (by rw [hf, hengine]), hf]

/-- Settles O30. -/
theorem fireSetsGeneral : Obligations.FireSetsGeneral := by
  intro d s
  refine ⟨fun hd => congrArg settled (if_pos hd), fun hd hunmapped => ⟨fun hclear => ?_, fun hset => ?_⟩,
    fun hd hsound hmapped horigin hfull => ⟨fun hclear => ?_, fun hset => ?_⟩⟩
  · exact ⟨_, congrArg settled (fire_taken hd s), generalSet_of_ask (u := s) hclear (.useEntry _ s) (useEntry_engine _ s)
      (useEntry_worked _ s).edit (fun hs => by rw [useEntry_sound (hs _)]) (takeFire_unmapped hunmapped)⟩
  · exact congrArg settled (fire_asked hd (takeFire_unmapped hunmapped) (useEntry_engine _ s) hset)
  · exact ⟨_, congrArg settled (fire_taken hd s), generalSet_of_ask (u := notify (.incidentOverflow d) s) hclear
      (.notify _ s) rfl rfl (fun _ => rfl) (takeFire_full hsound hmapped horigin hfull)⟩
  · exact congrArg settled (fire_asked hd (takeFire_full hsound hmapped horigin hfull) rfl hset)

/-! ### A FIRE that joins (R48, R49) -/

theorem joinDz_eq (d : Nat) (i : Incident) : joinDz d i =
    if d ∈ i.dzList.map Prod.fst then { i with dzList := i.dzList.map fun x => if x.1 = d then (d, .inAlarm) else x }
    else if i.dzList.length < 4 then { i with dzList := i.dzList ++ [(d, .inAlarm)] }
    else { i with further := min (i.further + 1) 255 } :=
  ite_congr_iff inDzList_iff rfl rfl

/-- What a join leaves of a record. -/
theorem joinDz_keeps (d : Nat) (i : Incident) : (joinDz d i).id = i.id ∧ (joinDz d i).origin = i.origin ∧
    (joinDz d i).plan = i.plan ∧ (joinDz d i).demand = i.demand ∧ (joinDz d i).planFault = i.planFault := by
  unfold joinDz
  split
  · exact ⟨rfl, rfl, rfl, rfl, rfl⟩
  · split <;> exact ⟨rfl, rfl, rfl, rfl, rfl⟩

/-- The record confirmed: ACTIVE from elapsed 0 (R49). -/
def Incident.confirmed (i : Incident) : Incident := { i with state := .active, elapsed := 0 }

theorem joinIncident_other (hi : s.incident p = some i) (h : i.state.isConfirming = false) :
    joinIncident p d s = onIncident p (joinDz d) s := by
  unfold joinIncident
  rw [hi]
  exact if_neg (by simp [h])

/-- The record joined and confirmed, before it enters its plan. -/
def joinedConfirmed (p d id : Nat) (s : State) : State :=
  notify (.incident id .active) (onIncident p Incident.confirmed (onIncident p (joinDz d) s))

theorem joinIncident_confirming (hi : s.incident p = some i) (h : i.state.isConfirming = true) :
    joinIncident p d s = enterPlan p (joinedConfirmed p d i.id s) := by
  unfold joinIncident
  rw [hi]
  exact if_pos h

theorem joinedConfirmed_work (id : Nat) (hi : s.incident p = some i) :
    RecordWork p (joinDz d i).confirmed false s (joinedConfirmed p d id s) := by
  have hjoined := RecordWork.onIncident (joinDz d) hi
  have hconfirmed := hjoined.trans (.onIncident Incident.confirmed (hjoined.incident hi))
  exact hconfirmed.trans (.notify (.incident id .active) (hconfirmed.incident hi))

/-- Settles O32. -/
theorem fireJoinsAnIncident : Obligations.FireJoinsAnIncident := by
  intro d p i s hd hsound e hmapped hi horigin hfirst joined
  have hfire : fire d s = engineEvent (takeFire d) s := fire_taken hd s
  have hfind := findIncident_first (f := fun i => decide (i.origin = e.storey)) hi (decide_eq_true horigin)
    fun x hx j hj => decide_eq_false (hfirst x hx j hj)
  have htaken : takeFire d s = joinIncident p d s := takeFire_join hsound hmapped hfind
  have hjoined : joinDz d i = joined := joinDz_eq d i
  refine ⟨fun hstate => ?_, fun deadline hstate => ?_⟩
  · have hnot : i.state.isConfirming = false := by rcases hstate with hstate | hstate <;> rw [hstate] <;> rfl
    have hwork : takeFire d s =
        { s with engine := { s.engine with incidents := s.engine.incidents.set p joined } } := by
      rw [htaken, joinIncident_other hi hnot, ← hjoined, ← modifyAt_eq hi]
      rfl
    refine congrArg settled ?_
    rw [hfire, engineEvent_unchanged (by rw [hwork]) (by rw [hwork]), hwork]
  · have hconfirmed := joinedConfirmed_work (d := d) i.id hi
    have hentered := enterPlan_work (hconfirmed.incident hi)
    rw [hconfirmed.entered, hjoined] at hentered
    obtain ⟨fault, hwork, hfault, -⟩ := hentered.after (hjoined ▸ hconfirmed)
    rw [← joinIncident_confirming hi (by rw [hstate]; rfl), ← htaken] at hwork
    have hbeside := engineEvent_beside (takeFire d) s
    have hincidents := (congrArg Engine.incidents hbeside.engine).trans hwork.incidents
    have hkept := StepKept.entered s joined.confirmed
    obtain ⟨hid, horigin', hplan, hdemand, hplanFault⟩ := hjoined ▸ joinDz_keeps d i
    refine ⟨_, _, congrArg settled hfire, incident_set_self hi hincidents, rfl, hkept.state, hkept.elapsed, hkept.dzList,
      hkept.further, hkept.id.trans hid, hkept.origin.trans horigin', hkept.plan.trans hplan, fun z hz => ?_,
      fun x hx => incident_set_other hx hincidents, (congrArg Engine.idCounter hbeside.engine).trans hwork.idCounter,
      fun hfree => ?_, fun hs => ?_⟩
    · rw [← hdemand]
      exact hkept.demand z hz
    · exact (congrArg Engine.general hbeside.engine).trans (hwork.general.trans (by rw [hfault (hplanFault.trans hfree)]))
    · have hsound' : SoundTables (joinedConfirmed p d i.id s) := fun r => (hconfirmed.sound r).mpr (hs r)
      have honly : takeFire d s = { joinedConfirmed p d i.id s with engine := (takeFire d s).engine } := by
        rw [htaken, joinIncident_confirming hi (by rw [hstate]; rfl)]
        exact enterPlan_engineOnly hsound' (hconfirmed.incident hi)
      rw [hbeside.edit, engineEvent_faultUnit fun r => (hwork.sound r).mpr (hs r), honly]
      exact ⟨rfl, rfl⟩

/-! ### A FIRE that creates (R41, R45, R46) -/

/-- The part once an incident for `d` has been listed, before its pre-alert or plan. -/
def created (d : Nat) (e : DetectionEntry) (s : State) : State :=
  let t := (readWindow e.confirmRequired s).1
  notify (.incident (freeId t.engine.incidents 9 t.engine.idCounter) (if e.confirmRequired then .confirming else .active))
    (breakEdit (appendIncident d e (readWindow e.confirmRequired s).2 t))

theorem createIncident_eq (d : Nat) (e : DetectionEntry) (s : State) : createIncident d e s =
    if e.confirmRequired then
      if e.preAlert then placePreAlert s.engine.incidents.length e.storey (created d e s) else created d e s
    else enterPlan s.engine.incidents.length (created d e s) := by
  have hlength : (readWindow e.confirmRequired s).1.engine.incidents.length = s.engine.incidents.length := by
    rw [readWindow_engine]
  unfold createIncident created
  rw [← hlength]

theorem readWindow_frame (c : Bool) (s : State) : EngineFrame s (readWindow c s).1 := by
  unfold readWindow
  split
  · rw [readTiming_value]
    exact .useEntry headerRef s
  · exact .refl s

theorem readWindow_value (s : State) : (readWindow true s).2 = headerValue Header.confirmWindow s :=
  congrArg Prod.snd (readTiming_value Header.confirmWindow s)

/-- The id that a new incident gets (R41). -/
def newId (e : Engine) : Nat := freeId e.incidents 9 e.idCounter

theorem newId_of_free {e : Engine} (h : ∀ j ∈ e.incidents, j.id ≠ e.idCounter) : newId e = e.idCounter := by
  unfold newId freeId
  exact if_neg (by simpa using h)

/-- The record of a new incident (R45). -/
def newRecord (d : Nat) (e : DetectionEntry) (s : State) : Incident :=
  newIncident (newId s.engine) d e (readWindow e.confirmRequired s).2

theorem created_engine (d : Nat) (e : DetectionEntry) (s : State) :
    (created d e s).engine = s.engine.appended d e (readWindow e.confirmRequired s).2 := by
  show (breakEdit (appendIncident d e _ (readWindow e.confirmRequired s).1)).engine = _
  rw [breakEdit_engine]
  show (readWindow e.confirmRequired s).1.engine.appended d e _ = _
  rw [readWindow_engine]

theorem created_frame (d : Nat) (e : DetectionEntry) (s : State) : EngineFrame s (created d e s) := by
  have happended : EngineFrame s (appendIncident d e (readWindow e.confirmRequired s).2 (readWindow e.confirmRequired s).1) :=
    (readWindow_frame e.confirmRequired s).trans (.onEngine _ _)
  exact (happended.trans (.breakEdit _)).trans (.notify _ _)

theorem created_edit (d : Nat) (e : DetectionEntry) (s : State) : (created d e s).tables.edit = none := breakEdit_edit _

theorem created_incident (d : Nat) (e : DetectionEntry) (s : State) :
    (created d e s).incident s.engine.incidents.length = some (newRecord d e s) := by
  show (created d e s).engine.incidents[_]? = _
  rw [created_engine]
  exact List.getElem?_concat_length

theorem created_faultUnit (d : Nat) (e : DetectionEntry) (hs : SoundTables s) : (created d e s).faultUnit =
    FaultUnit.take (.incident (newId s.engine) (if e.confirmRequired then .confirming else .active))
      (if s.tables.edit.isSome then FaultUnit.take (.editEnded .broken) s.faultUnit else s.faultUnit) := by
  have hread : (readWindow e.confirmRequired s).1 = s := by
    unfold readWindow
    split
    · rw [readTiming_sound _ (hs _)]
    · rfl
  show FaultUnit.take _ (breakEdit (appendIncident d e _ (readWindow e.confirmRequired s).1)).faultUnit = _
  rw [breakEdit_faultUnit, hread]
  rfl

/-- The work on a record just listed leaves the list with that record as its last. -/
theorem created_set (d : Nat) (e : DetectionEntry) (s : State) (j : Incident) :
    (created d e s).engine.incidents.set s.engine.incidents.length j = s.engine.incidents ++ [j] := by
  rw [created_engine]
  show (s.engine.incidents ++ [_]).set s.engine.incidents.length j = _
  rw [List.set_append_right _ _ (Nat.le_refl _), Nat.sub_self, List.set_cons_zero]

/-! ### The pre-alert (R46) -/

/-- The header and the storey's entry can be read. -/
def Readable (s : State) (storey : Nat) : Prop := Sound s headerRef ∧ Sound s (storeyRef storey)

theorem placePreAlert_readable {storey : Nat} (h : Readable s storey) : placePreAlert p storey s =
    raiseZones p .alert (s.tables.fields.storeys.get storey).zones s := by
  obtain ⟨hheader, hstorey⟩ := h
  unfold placePreAlert
  rw [readStoreyCount_sound hheader]
  dsimp only
  rw [readSpan_sound hstorey]

theorem placePreAlert_unreadable {storey : Nat} (h : ¬Readable s storey) :
    ∃ r, placePreAlert p storey s = askGeneral .planFault (useEntry r s).1 := by
  unfold placePreAlert
  by_cases hheader : Sound s headerRef
  · have hstorey : ¬Sound s (storeyRef storey) := fun hstorey => h ⟨hheader, hstorey⟩
    rw [readStoreyCount_sound hheader]
    dsimp only
    rw [readSpan_unsound hstorey]
    exact ⟨_, rfl⟩
  · rw [readStoreyCount_unsound hheader]
    exact ⟨_, rfl⟩

theorem RecordWork.askPlanFault (hi : s.incident p = some i) : RecordWork p i true s (askGeneral .planFault s) where
  toEngineFrame := .askGeneral .planFault s
  incidents := by
    obtain ⟨hlt, rfl⟩ := List.getElem?_eq_some_iff.mp hi
    rw [(askGeneral_engine .planFault s).2.1, List.set_getElem_self]
  general := (askGeneral_engine .planFault s).1.trans (generalAfter_of rfl).symm
  idCounter := (askGeneral_engine .planFault s).2.2

/-- The zones a pre-alert on `storey` raises. -/
def preAlertZones (s : State) (storey : Nat) : List Nat :=
  if Sound s headerRef ∧ Sound s (storeyRef storey) then (s.tables.fields.storeys.get storey).zones else []

theorem preAlertZones_readable {storey : Nat} (h : Readable s storey) :
    preAlertZones s storey = (s.tables.fields.storeys.get storey).zones := if_pos h

theorem preAlertZones_unreadable {storey : Nat} (h : ¬Readable s storey) : preAlertZones s storey = [] := if_neg h

theorem placePreAlert_work {storey : Nat} (hi : s.incident p = some i) : ∃ fault,
    RecordWork p (i.raisedTo .alert (preAlertZones s storey)) fault s (placePreAlert p storey s) ∧
      (fault = true ↔ ¬Readable s storey) := by
  by_cases h : Readable s storey
  · rw [placePreAlert_readable h, preAlertZones_readable h]
    exact ⟨false, .raiseZones _ _ hi, iff_of_false Bool.false_ne_true (not_not_intro h)⟩
  · obtain ⟨r, hasked⟩ := placePreAlert_unreadable (p := p) h
    have hused := RecordWork.useEntry r hi
    rw [hasked, preAlertZones_unreadable h, raisedTo_nil]
    exact ⟨true, hused.trans (.askPlanFault (hused.incident hi)), iff_of_true rfl h⟩

/-- A new record that awaits confirmation, with its pre-alert where one is asked for and can be placed (R45, R46). -/
theorem createIncident_confirming (d : Nat) (hconfirm : e.confirmRequired = true) (s : State) : ∃ fault zones,
    RecordWork s.engine.incidents.length ((newRecord d e s).raisedTo .alert zones) fault (created d e s) (createIncident d e s) ∧
      (fault = true ↔ e.preAlert = true ∧ ¬Readable s e.storey) ∧
      (∀ z, z ∈ zones ↔ e.preAlert = true ∧ Readable s e.storey ∧ z ∈ (s.tables.fields.storeys.get e.storey).zones) ∧
      (SoundTables s → (createIncident d e s).faultUnit = (created d e s).faultUnit) := by
  have hi := created_incident d e s
  have hframe := created_frame d e s
  have hreadable : Readable (created d e s) e.storey ↔ Readable s e.storey := and_congr (hframe.sound _) (hframe.sound _)
  rw [createIncident_eq, if_pos hconfirm]
  rcases hpre : e.preAlert
  · refine ⟨false, [], ?_, by simp, by simp, fun _ => rfl⟩
    rw [raisedTo_nil]
    exact .refl hi
  · obtain ⟨fault, hwork, hfault⟩ := placePreAlert_work (storey := e.storey) hi
    refine ⟨fault, _, hwork, by rw [hfault, hreadable]; simp, fun z => ?_, fun hs => ?_⟩
    · by_cases h : Readable s e.storey
      · rw [preAlertZones_readable (hreadable.mpr h), hframe.fields]
        simp [h]
      · rw [preAlertZones_unreadable (mt hreadable.mp h)]
        simp [h]
    · rw [if_pos rfl, placePreAlert_readable (hreadable.mpr ⟨hs _, hs _⟩)]
      rfl

/-! ### O31 -/

/-- What a FIRE that creates leaves, the work on the new record having left `j`. -/
theorem fire_creates {fault : Bool} (hd : d ≤ 511) (hcreate : takeFire d s = createIncident d e s)
    (hwork : RecordWork s.engine.incidents.length j fault (created d e s) (createIncident d e s)) : ∃ t,
    fire d s = t ∧ t.engine.incidents = s.engine.incidents ++ [j] ∧ t.engine.idCounter = nextId (newId s.engine) ∧
      t.tables.edit = none ∧ t.sPort = s.sPort ∧ t.zPort = s.zPort ∧ t.timer = s.timer ∧
      t.engine.general = generalAfter s (fault = true) ∧
      (SoundTables s → t.faultUnit = (createIncident d e s).faultUnit) := by
  have hframe := (created_frame d e s).trans hwork.toEngineFrame
  have hengine := created_engine d e s
  have hgeneral : generalAfter (created d e s) (fault = true) = generalAfter s (fault = true) := by
    unfold generalAfter
    rw [hengine]
    rfl
  have hbeside := engineEvent_beside (takeFire d) s
  have hunit : SoundTables s → (engineEvent (takeFire d) s).faultUnit = (takeFire d s).faultUnit := fun hs =>
    engineEvent_faultUnit fun r => by rw [hcreate]; exact (hframe.sound r).mpr (hs r)
  rw [hcreate] at hbeside hunit
  refine ⟨_, fire_taken hd s, ?_, ?_, hbeside.edit.trans (hwork.edit (created_edit d e s)),
    hbeside.sPort.trans hframe.sPort, hbeside.zPort.trans hframe.zPort, hbeside.timer.trans hframe.timer, ?_, hunit⟩
  · rw [hbeside.engine, hwork.incidents, created_set]
  · rw [hbeside.engine, hwork.idCounter, hengine]
    rfl
  · rw [hbeside.engine, hwork.general, hgeneral]

/-- Settles O31, by whether the new incident awaits confirmation. -/
theorem fireCreatesAnIncident : Obligations.FireCreatesAnIncident := by
  intro d s hd hsound e readable hmapped horigin hroom
  have hcreate : takeFire d s = createIncident d e s := takeFire_create hsound hmapped horigin hroom
  rcases hconfirm : e.confirmRequired
  · have hentered := enterPlan_work (created_incident d e s)
    rw [(created_frame d e s).entered] at hentered
    obtain ⟨fault, hwork, hfault, hnone⟩ := hentered
    have hactive : createIncident d e s = enterPlan s.engine.incidents.length (created d e s) := by
      rw [createIncident_eq, hconfirm]
      rfl
    rw [← hactive] at hwork
    obtain ⟨t, ht, hincidents, hcounter, hedit, hsPort, hzPort, htimer, hgeneral, hunit⟩ := fire_creates hd hcreate hwork
    have hkept := StepKept.entered s (newRecord d e s)
    have hfree : fault = ((newRecord d e s).entered s).planFault := hfault rfl
    have hnew : newRecord d e s =
        { id := newId s.engine, state := .active, origin := e.storey, plan := e.plan, dzList := [(d, .inAlarm)], further := 0
          elapsed := 0, nextStep := none, lastStep := none, planFault := false, demand := .const .none } := by
      unfold newRecord newIncident
      rw [hconfirm]
      rfl
    have hid : ((newRecord d e s).entered s).id = newId s.engine := hkept.id
    refine ⟨t, _, congrArg settled ht, hincidents, hkept.origin, hkept.plan, hkept.dzList, hkept.further, hkept.elapsed,
      fun hids => hid.trans (newId_of_free hids), ?_, hedit, hsPort, hzPort, htimer, fun hs => ?_, nofun, fun _ => ?_⟩
    · rw [hid]
      exact hcounter
    · have hsound' : SoundTables (created d e s) := fun r => ((created_frame d e s).sound r).mpr (hs r)
      have honly := congrArg State.faultUnit (enterPlan_engineOnly hsound' (created_incident d e s))
      rw [← hfree, hnone hsound', hgeneral, hnone hsound', hunit hs, hactive, honly, created_faultUnit d e hs, hid, hconfirm]
      exact ⟨rfl, generalAfter_not Bool.false_ne_true, rfl⟩
    · rw [hid, ← hnew, hgeneral, hfree]
      exact ⟨hkept.state.trans (by rw [hnew]), rfl, rfl⟩
  · obtain ⟨fault, zones, hwork, hfault, hzones, hraised⟩ := createIncident_confirming d hconfirm s
    obtain ⟨t, ht, hincidents, hcounter, hedit, hsPort, hzPort, htimer, hgeneral, hunit⟩ := fire_creates hd hcreate hwork
    refine ⟨t, _, congrArg settled ht, hincidents, rfl, rfl, rfl, rfl, rfl, newId_of_free, hcounter, hedit, hsPort, hzPort, htimer,
      fun hs => ⟨rfl, ?_, ?_⟩, fun _ => ⟨?_, rfl, rfl, rfl, ?_, fun z hz => ?_⟩, nofun⟩
    · have hno : ¬fault = true := fun h => (hfault.mp h).2 ⟨hs _, hs _⟩
      exact hgeneral.trans (generalAfter_not hno)
    · rw [hunit hs, hraised hs, created_faultUnit d e hs, hconfirm]
      rfl
    · show (if e.confirmRequired then IncidentState.confirming (readWindow e.confirmRequired s).2 else .active) = _
      rw [hconfirm, readWindow_value]
      rfl
    · exact hgeneral.trans (generalAfter_congr hfault)
    · have hnone : (newRecord d e s).demand.get z = .none := Tab.get_const _ hz
      refine (get_raiseVector .alert zones _ hz).trans ?_
      rw [hnone, none_max]
      exact ite_congr_iff (hzones z) rfl rfl

end Sys2Proof.Machine
end

section
/-! SUPPORT. The incident tick: what it does to the records, to GENERAL and to the all-clear timers (R51, R52, R57, R58, R75). -/

namespace Sys2Proof.Machine

variable {s t u : State} {p k n z : Nat} {i j : Incident} {f g : Bool}

/-! ### Work that only raises demand (R76) -/

/-- Work under the law of demand that keeps it, leaves each zone's demand and timer as they were or raises the demand and
cancels the timer. -/
def Lifts (s t : State) : Prop :=
  DemandLaw s.engine → DemandLaw t.engine ∧ ∀ z < 128,
    t.engine.demand.get z = s.engine.demand.get z ∧ t.engine.allClear.get z = s.engine.allClear.get z ∨
      (s.engine.demand.get z).rank < (t.engine.demand.get z).rank ∧ t.engine.allClear.get z = 0

theorem Lifts.trans (h : Lifts s t) (g : Lifts t u) : Lifts s u := by
  intro hlaw
  obtain ⟨hlaw', hfirst⟩ := h hlaw
  obtain ⟨hlaw'', hsecond⟩ := g hlaw'
  refine ⟨hlaw'', fun z hz => ?_⟩
  rcases hfirst z hz with ⟨hd, hc⟩ | ⟨hd, hc⟩ <;> rcases hsecond z hz with ⟨hd', hc'⟩ | ⟨hd', hc'⟩
  · exact .inl ⟨hd'.trans hd, hc'.trans hc⟩
  · exact .inr ⟨hd ▸ hd', hc'⟩
  · exact .inr ⟨hd'.symm ▸ hd, hc'.trans hc⟩
  · exact .inr ⟨Nat.lt_trans hd hd', hc'⟩

theorem Lifts.of_engine (h : t.engine = s.engine) : Lifts s t := by
  intro hlaw
  rw [h]
  exact ⟨hlaw, fun z _ => .inl ⟨rfl, rfl⟩⟩

theorem Lifts.useEntry (r : EntryRef) (s : State) : Lifts s (useEntry r s).1 := .of_engine (useEntry_engine r s)

theorem Lifts.onIncident {f : Incident → Incident} (hf : ∀ i, SameRecord i (f i)) (hdemand : ∀ i, (f i).demand = i.demand) :
    Lifts s (onIncident p f s) := fun hlaw =>
  ⟨(Kept.onIncident (x := .all) (D := .empty) trivial hf hdemand).demand hlaw, fun _ _ => .inl ⟨rfl, rfl⟩⟩

/-- Demand formed again after a change of the engine that lowers no zone's demand. -/
theorem lifts_recompute {q : Nat → Bool} {e : Engine} (hz : z < 128) (hle : (e.demand.get z).rank ≤ (e.formed z).rank) :
    (e.recompute q none).demand.get z = e.demand.get z ∧ (e.recompute q none).allClear.get z = e.allClear.get z ∨
      (e.demand.get z).rank < ((e.recompute q none).demand.get z).rank ∧ (e.recompute q none).allClear.get z = 0 := by
  have hdemand : (e.recompute q none).demand.get z = if q z then e.formed z else e.demand.get z := Tab.get_mapIdx _ _ hz
  have hclear : (e.recompute q none).allClear.get z =
      if q z then timerAfter none (e.demand.get z) (e.formed z) (e.allClear.get z) else e.allClear.get z :=
    Tab.get_mapIdx _ _ hz
  rw [hdemand, hclear]
  rcases q z
  · exact .inl ⟨rfl, rfl⟩
  rcases Nat.lt_or_ge (e.demand.get z).rank (e.formed z).rank with hlt | hge
  · exact .inr ⟨hlt, if_pos hlt⟩
  · have hsame : e.formed z = e.demand.get z := by
      have hrank := Nat.le_antisymm hge hle
      revert hrank
      cases e.formed z <;> cases e.demand.get z <;> simp [Demand.rank]
    rw [hsame]
    refine .inl ⟨rfl, ?_⟩
    show timerAfter none _ _ _ = _
    unfold timerAfter
    rw [if_neg (Nat.lt_irrefl _), if_neg fun h => h.1 h.2]

theorem formedOf_modifyAt_le {f : Incident → Incident} (l : List Incident) (p z : Nat)
    (h : ∀ i, (i.demand.get z).rank ≤ ((f i).demand.get z).rank) : (formedOf l z).rank ≤ (formedOf (modifyAt f p l) z).rank := by
  have hmax {a b c d : Demand} (hab : a.rank ≤ b.rank) (hcd : c.rank ≤ d.rank) : (a.max c).rank ≤ (b.max d).rank := by
    unfold Demand.max
    split <;> split <;> omega
  induction l generalizing p with
  | nil => cases p <;> exact Nat.le_refl _
  | cons a l ih =>
    cases p with
    | zero => exact hmax (h a) (Nat.le_refl _)
    | succ p => exact hmax (Nat.le_refl _) (ih p)

theorem formed_le {e g : Engine} (hgeneral : g.general = e.general)
    (hle : (formedOf e.incidents z).rank ≤ (formedOf g.incidents z).rank) : (e.formed z).rank ≤ (g.formed z).rank := by
  rw [formed_eq, formed_eq, hgeneral]
  split
  · exact Nat.le_refl _
  · exact hle

theorem Lifts.raiseZones (d : Demand) (zs : List Nat) : Lifts s (raiseZones p d zs s) := fun hlaw => by
  refine ⟨(Kept.raiseZones (x := .all) (D := .empty) trivial d zs).demand hlaw, fun z hz => ?_⟩
  refine lifts_recompute (e := { s.engine with incidents := modifyAt (Incident.raisedTo d zs) p s.engine.incidents }) hz ?_
  show (s.engine.demand.get z).rank ≤ _
  rw [hlaw.formed z hz]
  refine formed_le rfl (formedOf_modifyAt_le _ p z fun i => ?_)
  rw [Incident.raisedTo, get_raiseVector d zs _ hz]
  split
  · exact (rank_le_max _ _).1
  · exact Nat.le_refl _

theorem Lifts.askGeneral (cause : GeneralCause) (s : State) : Lifts s (askGeneral cause s) := fun hlaw => by
  refine ⟨(Kept.askGeneral (x := .all) (D := .empty) trivial cause).demand hlaw, fun z hz => ?_⟩
  rcases h : s.engine.general with _ | c
  · rw [askGeneral_sets cause h]
    refine lifts_recompute (e := { s.engine with general := some cause }) hz ?_
    show _ ≤ Demand.rank .evacuate
    cases s.engine.demand.get z <;> decide
  · rw [askGeneral_of_set cause (by simp [h])]
    exact .inl ⟨rfl, rfl⟩

theorem Lifts.planFault (p : Nat) (s : State) : Lifts s (planFault p s) :=
  (Lifts.askGeneral .planFault s).trans (.onIncident (fun _ => ⟨rfl, rfl, fun h => h⟩) fun _ => rfl)

theorem Lifts.applyStep (hi : s.incident p = some i) (k : Nat) : Lifts s (applyStep p k s).1 := by
  by_cases hk : Sound s (stepRef k)
  case neg =>
    rw [applyStep_unsound hi hk]
    exact (Lifts.useEntry _ s).trans (.planFault p _)
  by_cases hh : Sound s headerRef
  case neg =>
    rw [applyStep_headerUnsound hi hk hh]
    exact (Lifts.useEntry _ s).trans (.planFault p _)
  rcases sound_or_first_unsound s (i.rangeOf s k).storeys with hall | ⟨before, m, after, heq, hbefore, hm⟩
  · rw [applyStep_whole hi hk hh hall]
    exact (Lifts.raiseZones _ _).trans (.onIncident (fun _ => ⟨rfl, rfl, fun h => h⟩) fun _ => rfl)
  · rw [applyStep_stops hi hk hh heq hbefore hm]
    exact ((Lifts.useEntry _ s).trans (.raiseZones _ _)).trans (.planFault p _)

theorem Lifts.dueCheck (hi : s.incident p = some i) (n : Nat) : Lifts s (dueCheck p n s) := by
  induction n generalizing s i with
  | zero => exact .of_engine rfl
  | succ n ih =>
    rcases hk : i.nextStep with _ | k
    · rw [dueCheck_none hi hk]
      exact .of_engine rfl
    by_cases hsound : Sound s (stepRef k)
    · rw [dueCheck_sound hi hk hsound]
      split
      · exact .of_engine rfl
      · exact (Lifts.applyStep hi k).trans (ih ((applyStep_work hi).1.incident hi))
    · rw [dueCheck_unsound hi hk hsound]
      exact (Lifts.useEntry _ s).trans (.planFault p _)

/-! ### One record in the tick (R51, R57, R58) -/

/-- The record with one tick more of elapsed time. -/
def Incident.aged (i : Incident) : Incident := { i with elapsed := min (i.elapsed + 1) 65535 }

/-- No step of the record is due at the next tick, and its next step can be read. -/
def Waits (s : State) (i : Incident) : Prop :=
  i.state = .active → ∀ k, i.nextStep = some k →
    Sound s (stepRef k) ∧ min (i.elapsed + 1) 65535 < (s.tables.fields.steps.get k).delay

theorem ticked_active (h : i.state = .active) : i.ticked s = some (Incident.dueSteps s 256 i.aged) := by
  cases i
  cases h
  rfl

theorem ticked_held (h : i.state = .held) : i.ticked s = some i := by
  rw [Incident.ticked, h]

theorem ticked_confirming {deadline : Nat} (h : i.state = .confirming deadline) :
    i.ticked s = if deadline ≤ 1 then none else some (i.inState (.confirming (deadline - 1))) := by
  rw [Incident.ticked, h]
  rfl

theorem EngineFrame.ticked (h : EngineFrame s t) (i : Incident) : i.ticked t = i.ticked s := by
  rcases hstate : i.state
  · rw [ticked_confirming hstate, ticked_confirming hstate]
  · rw [ticked_active hstate, ticked_active hstate, h.dueSteps]
  · rw [ticked_held hstate, ticked_held hstate]

/-- The notice of an incident that expires in the tick (R52). -/
def expiryNotice (s : State) (i : Incident) : Option Notice :=
  if (i.ticked s).isNone then some (.incident i.id .removed) else none

/-- The incident meets its first plan fault in the tick. -/
def MeetsFault (s : State) (i : Incident) : Prop := i.planFault = false ∧ (i.ticked s).any Incident.planFault = true

theorem EngineFrame.expiryNotice (h : EngineFrame s t) (i : Incident) : expiryNotice t i = expiryNotice s i := by
  rw [Machine.expiryNotice, Machine.expiryNotice, h.ticked]

theorem EngineFrame.meetsFault (h : EngineFrame s t) (i : Incident) : MeetsFault t i ↔ MeetsFault s i := by
  rw [MeetsFault, MeetsFault, h.ticked]

theorem EngineFrame.waits (h : EngineFrame s t) (i : Incident) : Waits t i ↔ Waits s i := by
  simp only [Waits, h.sound, h.fields]

/-- What the tick does to a record that stays: from `i` to `j`, GENERAL being asked for where `fault`. -/
structure RecordTicked (p : Nat) (i j : Incident) (fault : Bool) (s t : State) : Prop extends RecordWork p j fault s t where
  ticked : i.ticked s = some j
  lifts : Lifts s t
  quiet : SoundTables s → fault = false ∧ t.tables = s.tables ∧ t.faultUnit = s.faultUnit
  waits : Waits s i → fault = false ∧ t.tables.edit = s.tables.edit
  meets : (i.planFault = true → i.nextStep = none) → (fault = true ↔ MeetsFault s i)

/-- A record that only its own fields change for. -/
theorem recordTicked_onIncident {f : Incident → Incident} (hi : s.incident p = some i) (hticked : i.ticked s = some (f i))
    (hf : ∀ i, SameRecord i (f i)) (hdemand : ∀ i, (f i).demand = i.demand) (hfault : (f i).planFault = i.planFault) :
    RecordTicked p i (f i) false s (onIncident p f s) where
  toRecordWork := .onIncident f hi
  ticked := hticked
  lifts := .onIncident hf hdemand
  quiet _ := ⟨rfl, rfl, rfl⟩
  waits _ := ⟨rfl, rfl⟩
  meets _ := iff_of_false Bool.false_ne_true fun ⟨hfree, hmet⟩ => by
    rw [hticked, Option.any_some, hfault, hfree] at hmet
    cases hmet

theorem recordTicked_held (hi : s.incident p = some i) (h : i.state = .held) : RecordTicked p i i false s s where
  toRecordWork := .refl hi
  ticked := ticked_held h
  lifts := .of_engine rfl
  quiet _ := ⟨rfl, rfl, rfl⟩
  waits _ := ⟨rfl, rfl⟩
  meets _ := iff_of_false Bool.false_ne_true fun ⟨hfree, hmet⟩ => by
    rw [ticked_held h, Option.any_some, hfree] at hmet
    cases hmet

/-- No step of the record is due, and its next step can be read. -/
def NoneDue (s : State) (i : Incident) : Prop :=
  ∀ k, i.nextStep = some k → Sound s (stepRef k) ∧ i.elapsed < (s.tables.fields.steps.get k).delay

theorem dueCheck_noneDue (hi : s.incident p = some i) (h : NoneDue s i) (n : Nat) : dueCheck p n s = s := by
  rcases hk : i.nextStep with _ | k
  · exact dueCheck_none hi hk n
  · obtain ⟨hsound, hdelay⟩ := h k hk
    cases n with
    | zero => rfl
    | succ n => exact (dueCheck_sound hi hk hsound).trans (if_pos hdelay)

theorem dueSteps_noneDue (h : NoneDue s i) (n : Nat) : Incident.dueSteps s n i = i := by
  rcases hk : i.nextStep with _ | k
  · exact dueSteps_none hk n
  · obtain ⟨hsound, hdelay⟩ := h k hk
    cases n with
    | zero => rfl
    | succ n => exact dueSteps_waits hk hsound hdelay

/-- The state once the record at position `p`, which is ACTIVE, has been served by the tick. -/
def activeTicked (p : Nat) (s : State) : State := dueCheck p dueFuel (onIncident p Incident.aged s)

theorem activeTicked_engineOnly (hs : SoundTables s) (hi : s.incident p = some i) :
    activeTicked p s = { s with engine := (activeTicked p s).engine } :=
  dueCheck_engineOnly (s := onIncident p Incident.aged s) hs (incident_set_self hi (onIncident_incidents Incident.aged hi)) dueFuel

theorem Lifts.activeTicked (hi : s.incident p = some i) : Lifts s (activeTicked p s) :=
  (Lifts.onIncident (f := Incident.aged) (fun _ => ⟨rfl, rfl, fun h => h⟩) fun _ => rfl).trans
    (.dueCheck (incident_set_self hi (onIncident_incidents Incident.aged hi)) dueFuel)

/-- An ACTIVE record is aged and its steps that are due are applied (R51, R57 to R59). -/
theorem recordTicked_active (hi : s.incident p = some i) (h : i.state = .active) :
    ∃ fault, RecordTicked p i (Incident.dueSteps s 256 i.aged) fault s (activeTicked p s) := by
  have haged := RecordWork.onIncident Incident.aged hi
  have hnew := haged.incident hi
  by_cases hnone : NoneDue s i.aged
  · have hsame : activeTicked p s = onIncident p Incident.aged s := dueCheck_noneDue hnew hnone dueFuel
    have hsteps := dueSteps_noneDue hnone 256
    rw [hsame, hsteps]
    exact ⟨false, recordTicked_onIncident hi ((ticked_active h).trans (congrArg some hsteps))
      (fun _ => ⟨rfl, rfl, fun h => h⟩) (fun _ => rfl) rfl⟩
  · obtain ⟨fault, hwork, hfault, hsound⟩ := dueCheck_work hnew dueFuel
    rw [haged.dueSteps] at hwork hfault
    have honly (hs : SoundTables s) := activeTicked_engineOnly hs hi
    exact ⟨fault,
      { toRecordWork := Bool.false_or fault ▸ haged.trans hwork
        ticked := ticked_active h
        lifts := .activeTicked hi
        quiet := fun hs => ⟨hsound hs, by rw [honly hs], by rw [honly hs]⟩
        waits := fun hwaits => absurd (hwaits h) hnone
        meets := fun hnext => by
          have hfree : i.planFault = false := by
            refine Classical.byContradiction fun hset => ?_
            have hnext' : i.aged.nextStep = none := hnext (by simpa using hset)
            exact hnone fun k hk => by rw [hnext'] at hk; cases hk
          rw [hfault hfree, MeetsFault, ticked_active h, Option.any_some]
          exact ⟨fun hj => ⟨hfree, hj⟩, And.right⟩ }⟩

/-! ### The records of the list in turn (R57) -/

/-- What the tick makes of the incidents `rest`, those in `done` having been served: its records, GENERAL where one meets a plan
fault, the notices of those that expire and the timers of the zones without demand. -/
structure TickWork (done rest : List Incident) (s t : State) : Prop where
  frame : EngineFrame s t
  incidents : t.engine.incidents = done ++ rest.filterMap (Incident.ticked s)
  idCounter : t.engine.idCounter = s.engine.idCounter
  general : ∃ fault, t.engine.general = generalAfter s (fault = true) ∧
    ((∀ i ∈ rest, i.planFault = true → i.nextStep = none) → (fault = true ↔ ∃ i ∈ rest, MeetsFault s i)) ∧
    (SoundTables s → fault = false) ∧ ((∀ i ∈ rest, Waits s i) → fault = false ∧ t.tables.edit = s.tables.edit)
  quiet : SoundTables s → t.tables = s.tables ∧ t.faultUnit = noticesTaken (rest.filterMap (expiryNotice s)) s.faultUnit
  timers : DemandLaw s.engine → DemandLaw t.engine ∧ ∀ z < 128, t.engine.demand.get z = .none →
    t.engine.allClear.get z = s.engine.allClear.get z

theorem tickWork_nil (h : s.engine.incidents = done) : TickWork done [] s s where
  frame := .refl s
  incidents := by simp [h]
  idCounter := rfl
  general := ⟨false, rfl, fun _ => by simp, fun _ => rfl, fun _ => ⟨rfl, rfl⟩⟩
  quiet _ := ⟨rfl, rfl⟩
  timers hlaw := ⟨hlaw, fun _ _ _ => rfl⟩

theorem formedOf_eq_none {l : List Incident} : formedOf l z = .none ↔ ∀ i ∈ l, i.demand.get z = .none := by
  have hmax {a b : Demand} : a.max b = .none ↔ a = .none ∧ b = .none := by cases a <;> cases b <;> decide
  induction l with
  | nil => simp [formedOf]
  | cons a l ih =>
    rw [List.forall_mem_cons]
    exact hmax.trans (and_congr_right' ih)

theorem formed_eq_none {e : Engine} : e.formed z = .none ↔ e.general = none ∧ ∀ i ∈ e.incidents, i.demand.get z = .none := by
  rw [formed_eq, ← formedOf_eq_none]
  rcases e.general <;> simp

/-- A record served and kept, and then the rest. -/
theorem RecordTicked.then {done rest : List Incident}
    (h : RecordTicked done.length i j f s u) (g : TickWork (done ++ [j]) rest u t) : TickWork done (i :: rest) s t := by
  obtain ⟨fault, hgeneral, hmeets, hsound, hwaits⟩ := g.general
  have hframe := h.toEngineFrame
  have hticked (l : List Incident) : l.filterMap (Incident.ticked u) = l.filterMap (Incident.ticked s) :=
    filterMap_eq_of_mem fun x _ => hframe.ticked x
  have hnotices (l : List Incident) : l.filterMap (expiryNotice u) = l.filterMap (expiryNotice s) :=
    filterMap_eq_of_mem fun x _ => hframe.expiryNotice x
  have hkept : expiryNotice s i = none := by rw [expiryNotice, h.ticked]; rfl
  have hsound' (hs : SoundTables s) : SoundTables u := fun r => (hframe.sound r).mpr (hs r)
  refine ⟨hframe.trans g.frame, ?_, g.idCounter.trans h.idCounter,
    ⟨f || fault, hgeneral.trans (generalAfter_trans h.general), fun hnext => ?_, fun hs => ?_, fun hall => ?_⟩,
    fun hs => ?_, fun hlaw => ?_⟩
  · rw [g.incidents, hticked, List.filterMap_cons_some h.ticked, List.append_assoc]
    rfl
  · obtain ⟨hfirst, hrest⟩ := List.forall_mem_cons.mp hnext
    simp only [Bool.or_eq_true, h.meets hfirst, hmeets hrest, hframe.meetsFault, List.mem_cons, exists_eq_or_imp]
  · rw [(h.quiet hs).1, hsound (hsound' hs)]
    rfl
  · obtain ⟨hfirst, hrest⟩ := List.forall_mem_cons.mp hall
    obtain ⟨hfault, hedit⟩ := hwaits fun x hx => (hframe.waits x).mpr (hrest x hx)
    rw [(h.waits hfirst).1, hfault, hedit, (h.waits hfirst).2]
    exact ⟨rfl, rfl⟩
  · obtain ⟨htables, hunit⟩ := g.quiet (hsound' hs)
    obtain ⟨-, htables', hunit'⟩ := h.quiet hs
    refine ⟨htables.trans htables', hunit.trans ?_⟩
    rw [hunit', hnotices, List.filterMap_cons_none hkept]
  · obtain ⟨hlaw', hlift⟩ := h.lifts hlaw
    obtain ⟨hlaw'', htimers⟩ := g.timers hlaw'
    refine ⟨hlaw'', fun z hz hnone => (htimers z hz hnone).trans ?_⟩
    rcases hlift z hz with ⟨-, hclear⟩ | ⟨hrise, hzero⟩
    · exact hclear
    have hold : s.engine.demand.get z ≠ .none := fun hold => by
      obtain ⟨hgen, hothers⟩ := formed_eq_none.mp ((hlaw.formed z hz).symm.trans hold)
      obtain ⟨hgen', hend⟩ := formed_eq_none.mp ((hlaw''.formed z hz).symm.trans hnone)
      have hformed : u.engine.formed z = .none := by
        refine formed_eq_none.mpr ⟨?_, fun x hx => ?_⟩
        · rw [hgeneral] at hgen'
          unfold generalAfter at hgen'
          split at hgen'
          · cases hgen'
          · exact hgen'
        · rw [h.incidents] at hx
          rcases List.mem_or_eq_of_mem_set hx with hx | rfl
          · exact hothers x hx
          · refine hend x ?_
            rw [g.incidents]
            simp
      rw [hlaw'.formed z hz, hformed] at hrise
      exact absurd hrise (Nat.not_lt_zero _)
    rw [hzero]
    refine Classical.byContradiction fun hclear => ?_
    exact hold (hlaw.allClear z hz (Ne.symm hclear))

/-- A record that expires, and then the rest (R52). -/
theorem TickWork.expired {done rest : List Incident} (hlist : s.engine.incidents = done ++ i :: rest)
    (hticked : i.ticked s = none) (g : TickWork done rest (expireIncident done.length s) t) :
    TickWork done (i :: rest) s t := by
  have hi : s.incident done.length = some i := by
    show s.engine.incidents[done.length]? = some i
    rw [hlist]
    simp
  obtain ⟨fault, hgeneral, hmeets, hsound, hwaits⟩ := g.general
  have hframe : EngineFrame s (expireIncident done.length s) := by
    rw [expireIncident_eq hi]
    exact { EngineFrame.refl s with }
  have hengine : (expireIncident done.length s).engine = s.engine.expired done.length i.demand := by rw [expireIncident_eq hi]
  have htables : (expireIncident done.length s).tables = s.tables := by rw [expireIncident_eq hi]
  have hnotice : expiryNotice s i = some (.incident i.id .removed) := by rw [expiryNotice, hticked]; rfl
  have hmeetsNot : ¬MeetsFault s i := fun h => by
    obtain ⟨-, hmet⟩ := h
    rw [hticked] at hmet
    cases hmet
  have hafter : generalAfter (expireIncident done.length s) (fault = true) = generalAfter s (fault = true) := by
    unfold generalAfter
    rw [hengine]
    rfl
  refine ⟨hframe.trans g.frame, ?_, ?_, ⟨fault, hgeneral.trans hafter, fun hnext => ?_, fun hs => hsound ?_, fun hall => ?_⟩,
    fun hs => ?_, fun hlaw => ?_⟩
  · rw [g.incidents, filterMap_eq_of_mem fun x _ => hframe.ticked x, List.filterMap_cons_none hticked]
  · rw [g.idCounter, hengine]
    rfl
  · obtain ⟨-, hrest⟩ := List.forall_mem_cons.mp hnext
    simp only [hmeets hrest, hframe.meetsFault, List.mem_cons, exists_eq_or_imp, hmeetsNot, false_or]
  · exact fun r => (hframe.sound r).mpr (hs r)
  · obtain ⟨-, hrest⟩ := List.forall_mem_cons.mp hall
    obtain ⟨hfault, hedit⟩ := hwaits fun x hx => (hframe.waits x).mpr (hrest x hx)
    exact ⟨hfault, hedit.trans (congrArg TableStore.edit htables)⟩
  · obtain ⟨htables', hunit⟩ := g.quiet fun r => (hframe.sound r).mpr (hs r)
    refine ⟨htables'.trans htables, hunit.trans ?_⟩
    rw [filterMap_eq_of_mem fun x _ => hframe.expiryNotice x, List.filterMap_cons_some hnotice, expireIncident_eq hi]
    rfl
  · obtain ⟨hlaw', htimers⟩ := g.timers ((Kept.expireIncident (x := .all) (D := .empty) trivial).demand hlaw)
    refine ⟨hlaw', fun z hz hnone => (htimers z hz hnone).trans ?_⟩
    rw [hengine]
    exact expired_allClear hlaw hz

theorem tickIncidents_confirming {deadline : Nat} (hi : s.incident p = some i) (h : i.state = .confirming deadline) (n : Nat) :
    tickIncidents (n + 1) p s =
      if deadline ≤ 1 then tickIncidents n p (expireIncident p s)
      else tickIncidents n (p + 1) (onIncident p (Incident.inState (.confirming (deadline - 1))) s) := by
  conv => lhs; unfold tickIncidents
  rw [hi]
  dsimp only
  rw [h]
  rfl

theorem tickIncidents_active (hi : s.incident p = some i) (h : i.state = .active) (n : Nat) :
    tickIncidents (n + 1) p s = tickIncidents n (p + 1) (activeTicked p s) := by
  conv => lhs; unfold tickIncidents
  rw [hi]
  dsimp only
  rw [h]
  rfl

theorem tickIncidents_held (hi : s.incident p = some i) (h : i.state = .held) (n : Nat) :
    tickIncidents (n + 1) p s = tickIncidents n (p + 1) s := by
  conv => lhs; unfold tickIncidents
  rw [hi]
  dsimp only
  rw [h]

/-- The tick serves the records that are left, oldest first. -/
theorem tickIncidents_work {done rest : List Incident} (hlist : s.engine.incidents = done ++ rest) :
    TickWork done rest s (tickIncidents rest.length done.length s) := by
  induction rest generalizing done s with
  | nil => exact tickWork_nil (hlist.trans (List.append_nil done))
  | cons i rest ih =>
    have hi : s.incident done.length = some i := by
      show s.engine.incidents[done.length]? = some i
      rw [hlist]
      simp
    have hkept {j : Incident} {f : Bool} {u : State} (h : RecordTicked done.length i j f s u) :
        TickWork done (i :: rest) s (tickIncidents rest.length (done.length + 1) u) := by
      have hlist' : u.engine.incidents = (done ++ [j]) ++ rest := by
        rw [h.incidents, hlist]
        simp
      have hrest := ih hlist'
      rw [List.length_append, List.length_singleton] at hrest
      exact h.then hrest
    rw [List.length_cons]
    rcases hstate : i.state with deadline | _ | _
    · rw [tickIncidents_confirming hi hstate]
      by_cases hlast : deadline ≤ 1
      · have hticked : i.ticked s = none := (ticked_confirming hstate).trans (if_pos hlast)
        rw [if_pos hlast]
        refine TickWork.expired hlist hticked (ih ?_)
        rw [expireIncident_eq hi]
        show s.engine.incidents.eraseIdx done.length = _
        rw [hlist, List.eraseIdx_append_of_length_le (Nat.le_refl _), Nat.sub_self, List.eraseIdx_cons_zero]
      · have hticked := (ticked_confirming (s := s) hstate).trans (if_neg hlast)
        rw [if_neg hlast]
        exact hkept (recordTicked_onIncident hi hticked (fun _ => ⟨rfl, rfl, fun h => h⟩) (fun _ => rfl) rfl)
    · obtain ⟨fault, hactive⟩ := recordTicked_active hi hstate
      rw [tickIncidents_active hi hstate]
      exact hkept hactive
    · rw [tickIncidents_held hi hstate]
      exact hkept (recordTicked_held hi hstate)

end Sys2Proof.Machine
end

section
/-! SUPPORT. INCIDENT TICK as a command: the engine's tick, the hand-over and the tick of the edit's lease (R57, R106, R163). -/

namespace Sys2Proof.Machine

variable {s t u : State} {p k n z : Nat} {i j : Incident}

/-! ### The tick of the lease (R163) -/

/-- The edit after one tick of its lease. -/
def leaseTicked (e : Edit) : Option Edit :=
  if e.lease ≤ 1 ∧ e.phase = .opened then none else some { e with lease := e.lease - 1 }

/-- The notices of a tick of the lease. -/
def leaseNotices (e : Edit) : List Notice := if e.lease ≤ 1 ∧ e.phase = .opened then [.editEnded .expired] else []

theorem leaseTick_of_none (h : s.tables.edit = none) : leaseTick s = s := by
  unfold leaseTick
  rw [h]

theorem leaseTick_of_some {e : Edit} (h : s.tables.edit = some e) : leaseTick s =
    if e.lease ≤ 1 ∧ e.phase = .opened then expireEdit s else s.setEdit (some { e with lease := e.lease - 1 }) := by
  have hrunOut : leaseRunOut { e with lease := e.lease - 1 } = true ↔ e.lease ≤ 1 ∧ e.phase = .opened := by
    rw [leaseRunOut_iff]
    simp [Nat.sub_eq_zero_iff_le]
  unfold leaseTick
  rw [h]
  exact ite_congr_iff hrunOut rfl rfl

/-- What a tick of the lease changes, and what it leaves. -/
theorem leaseTick_work (s : State) : (leaseTick s).engine = s.engine ∧ (leaseTick s).timer = s.timer ∧
    (leaseTick s).sPort = s.sPort ∧ (leaseTick s).zPort = s.zPort ∧
    (leaseTick s).tables.edit = s.tables.edit.bind leaseTicked ∧
    (leaseTick s).faultUnit = noticesTaken ((s.tables.edit.map leaseNotices).getD []) s.faultUnit := by
  rcases h : s.tables.edit with _ | e
  · rw [leaseTick_of_none h]
    exact ⟨rfl, rfl, rfl, rfl, h, rfl⟩
  · rw [leaseTick_of_some h, Option.bind_some, Option.map_some, Option.getD_some, leaseTicked, leaseNotices]
    split <;> exact ⟨rfl, rfl, rfl, rfl, rfl, rfl⟩

theorem noticesTaken_append (l m : List Notice) (u : FaultUnit) : noticesTaken (l ++ m) u = noticesTaken m (noticesTaken l u) :=
  List.foldl_append

/-! ### The timers lowered (R57, R75) -/

theorem lowerAllClear_frame (s : State) : EngineFrame s (lowerAllClear s) := .onEngine _ s

theorem lowerAllClear_allClear (s : State) (hz : z < 128) :
    (lowerAllClear s).engine.allClear.get z = s.engine.allClear.get z - 1 := Tab.get_mapIdx _ _ hz

/-! ### The tick as a whole -/

/-- The work of the tick in the engine: the timers lowered, then the records served. -/
def engineTicked (s : State) : State := tickIncidents s.engine.incidents.length 0 (lowerAllClear s)

/-- The tick: the records served from the timers lowered, the hand-over and the lease. -/
theorem incidentTick_work (s : State) : ∃ w v, TickWork [] s.engine.incidents (lowerAllClear s) w ∧ Beside w v ∧
    (SoundTables s → v.faultUnit = w.faultUnit) ∧ incidentTick s = leaseTick v := by
  have hwork : TickWork [] s.engine.incidents (lowerAllClear s) (engineTicked s) :=
    tickIncidents_work (s := lowerAllClear s) rfl
  refine ⟨engineTicked s, engineTick s, hwork, engineEvent_beside engineTicked s,
    fun hs => engineEvent_faultUnit (f := engineTicked) fun r => ?_, rfl⟩
  exact (hwork.frame.sound r).mpr (hs r)

theorem ticked_demand (h : Waits s i) (hticked : i.ticked s = some j) : j.demand = i.demand := by
  rcases hstate : i.state with deadline | _ | _
  · rw [ticked_confirming hstate] at hticked
    split at hticked
    · cases hticked
    · cases hticked
      rfl
  · rw [ticked_active hstate, dueSteps_noneDue (i := i.aged) (h hstate)] at hticked
    cases hticked
    rfl
  · rw [ticked_held hstate] at hticked
    cases hticked
    rfl

/-- The record of a step applied keeps a last step, and a due check keeps one. -/
theorem withStep_lastStep (h : i.lastStep ≠ none) (k : Nat) : (i.withStep s k).lastStep ≠ none := by
  rcases hwhole : i.appliesWhole s k
  · rw [withStep_stopped hwhole]
    exact h
  · rw [withStep_whole hwhole]
    nofun

theorem dueSteps_lastStep (h : i.lastStep ≠ none) (n : Nat) : (Incident.dueSteps s n i).lastStep ≠ none := by
  induction n generalizing i with
  | zero => exact h
  | succ n ih =>
    unfold Incident.dueSteps
    split
    · exact h
    · split
      · exact h
      · split
        · exact h
        · exact ih (withStep_lastStep h _)

/-! ### O34 -/

/-- A tick at which no step is due counts and expires, and nothing more. -/
theorem incidentTick_counts (hlaw : DemandLaw s.engine) (hwaits : ∀ i ∈ s.engine.incidents, Waits s i) : ∃ t,
    Leaves .incidentTick s t ∧ t.engine.incidents = s.engine.incidents.filterMap (Incident.ticked s) ∧
      (∀ z < 128, t.engine.allClear.get z = s.engine.allClear.get z - 1) ∧
      t.engine.general = s.engine.general ∧ t.engine.idCounter = s.engine.idCounter ∧
      t.tables.edit = s.tables.edit.bind leaseTicked ∧ t.timer = s.timer ∧ t.sPort = s.sPort ∧ t.zPort = s.zPort := by
  obtain ⟨w, v, hwork, hbeside, -, htick⟩ := incidentTick_work s
  obtain ⟨hengine, htimer, hsPort, hzPort, hedit, -⟩ := leaseTick_work v
  obtain ⟨fault, hgeneral, -, -, hquiet⟩ := hwork.general
  obtain ⟨hfault, hedit'⟩ := hquiet hwaits
  rw [hfault] at hgeneral
  replace hgeneral := hgeneral.trans (generalAfter_not Bool.false_ne_true)
  obtain ⟨hlaw', htimers⟩ := hwork.timers ((Kept.lowerAllClear (x := .all) (D := .empty) trivial).demand hlaw)
  have hlower := lowerAllClear_frame s
  have hincidents : w.engine.incidents = s.engine.incidents.filterMap (Incident.ticked s) :=
    hwork.incidents.trans (filterMap_eq_of_mem fun x _ => hlower.ticked x)
  rw [hbeside.engine] at hengine
  refine ⟨_, congrArg settled htick, by rw [hengine, hincidents], fun z hz => ?_, by rw [hengine]; exact hgeneral,
    by rw [hengine]; exact hwork.idCounter, by rw [hedit, hbeside.edit, hedit']; rfl,
    htimer.trans (hbeside.timer.trans hwork.frame.timer), hsPort.trans (hbeside.sPort.trans hwork.frame.sPort),
    hzPort.trans (hbeside.zPort.trans hwork.frame.zPort)⟩
  rw [hengine, ← lowerAllClear_allClear s hz]
  by_cases hnone : w.engine.demand.get z = .none
  · exact htimers z hz hnone
  have hdemand : s.engine.demand.get z ≠ .none := fun hold => hnone (by
    obtain ⟨hgen, hothers⟩ := formed_eq_none.mp ((hlaw.formed z hz).symm.trans hold)
    refine (hlaw'.formed z hz).trans (formed_eq_none.mpr ⟨hgeneral.trans hgen, fun x hx => ?_⟩)
    rw [hincidents] at hx
    obtain ⟨i, hi, hticked⟩ := List.mem_filterMap.mp hx
    rw [ticked_demand (hwaits i hi) hticked]
    exact hothers i hi)
  have hzero : s.engine.allClear.get z = 0 := by
    refine Classical.byContradiction fun h => ?_
    exact hdemand (hlaw.allClear z hz h)
  have hzero' : w.engine.allClear.get z = 0 := by
    refine Classical.byContradiction fun h => ?_
    exact hnone (hlaw'.allClear z hz h)
  rw [hzero', lowerAllClear_allClear s hz, hzero]

/-- The records, GENERAL, the demand and the notices after any tick. -/
theorem incidentTick_any (s : State) : ∃ t, Leaves .incidentTick s t ∧
    t.engine.incidents = s.engine.incidents.filterMap (Incident.ticked s) ∧ t.engine.idCounter = s.engine.idCounter ∧
    ((∀ i ∈ s.engine.incidents, i.planFault = true → i.nextStep = none) →
      ∃ fault : Bool, t.engine.general = generalAfter s (fault = true) ∧
        (fault = true ↔ ∃ i ∈ s.engine.incidents, MeetsFault s i)) ∧
    (DemandLaw s.engine → ∀ z < 128, t.engine.demand.get z = t.engine.formed z ∧
      t.engine.allClear.get z = if t.engine.demand.get z = .none then s.engine.allClear.get z - 1 else 0) ∧
    (SoundTables s → t.engine.general = s.engine.general ∧
      t.faultUnit = noticesTaken
        (s.engine.incidents.filterMap (expiryNotice s) ++ (s.tables.edit.map leaseNotices).getD []) s.faultUnit) := by
  obtain ⟨w, v, hwork, hbeside, hunit, htick⟩ := incidentTick_work s
  obtain ⟨hengine, -, -, -, -, hunit'⟩ := leaseTick_work v
  obtain ⟨fault, hgeneral, hmeets, hsound, -⟩ := hwork.general
  have hlower := lowerAllClear_frame s
  rw [hbeside.engine] at hengine
  refine ⟨_, congrArg settled htick, ?_, by rw [hengine]; exact hwork.idCounter, fun hnext => ⟨fault, by rw [hengine]; exact hgeneral, ?_⟩,
    fun hlaw z hz => ?_, fun hs => ⟨?_, ?_⟩⟩
  · rw [hengine]
    exact hwork.incidents.trans (filterMap_eq_of_mem fun x _ => hlower.ticked x)
  · simp only [hmeets hnext, hlower.meetsFault]
  · obtain ⟨hlaw', htimers⟩ := hwork.timers ((Kept.lowerAllClear (x := .all) (D := .empty) trivial).demand hlaw)
    rw [hengine]
    refine ⟨hlaw'.formed z hz, ?_⟩
    split
    case isTrue hnone => rw [htimers z hz hnone, lowerAllClear_allClear s hz]
    case isFalse hsome =>
      refine Classical.byContradiction fun h => ?_
      exact hsome (hlaw'.allClear z hz h)
  · rw [hengine, hgeneral, hsound hs]
    exact generalAfter_not Bool.false_ne_true
  · obtain ⟨htables, hunit''⟩ := hwork.quiet hs
    have hnotices : s.engine.incidents.filterMap (expiryNotice (lowerAllClear s)) =
        s.engine.incidents.filterMap (expiryNotice s) := filterMap_eq_of_mem fun x _ => hlower.expiryNotice x
    have hedit : v.tables.edit = s.tables.edit := hbeside.edit.trans (congrArg TableStore.edit htables)
    rw [hunit', hunit hs, hunit'', hnotices, noticesTaken_append, hedit]
    rfl

/-- A tick that makes a step due applies it. -/
theorem incidentTick_due (hs : SoundTables s) (hlist : s.engine.incidents = [i]) (hstate : i.state = .active)
    (hk : i.nextStep = some k) (hdelay : (s.tables.fields.steps.get k).delay = i.elapsed + 1) (hshort : i.elapsed < 3600) :
    ∃ t j, Leaves .incidentTick s t ∧ t.engine.incidents = [j] ∧ j.elapsed = i.elapsed + 1 ∧ j.state = .active ∧
      j.lastStep ≠ none ∧
      ∀ storey ∈ (i.rangeOf s k).storeys, ∀ z ∈ (s.tables.fields.storeys.get storey).zones, z < 128 →
        (s.tables.fields.steps.get k).kind.demand.rank ≤ (j.demand.get z).rank := by
  obtain ⟨t, hleaves, hincidents, -⟩ := incidentTick_any s
  have haged : i.aged.elapsed = i.elapsed + 1 := Nat.min_eq_left (by omega)
  have hdue : Incident.dueSteps s 256 i.aged = Incident.dueSteps s 255 (i.aged.withStep s k) :=
    dueSteps_due hk (hs _) (by rw [haged, hdelay]; exact Nat.lt_irrefl _)
  have hwhole := Incident.appliesWhole_sound hs k i.aged
  have hlast : (i.aged.withStep s k).lastStep ≠ none := by
    rw [withStep_whole hwhole]
    nofun
  have hkept := StepKept.dueSteps s 255 (i.aged.withStep s k)
  have hstep := StepKept.withStep s k i.aged
  refine ⟨t, Incident.dueSteps s 255 (i.aged.withStep s k), hleaves, ?_, ?_, ?_, dueSteps_lastStep hlast 255,
    fun storey hstorey z hzone hz => Nat.le_trans ?_ (hkept.demand z hz)⟩
  · rw [hincidents, hlist, List.filterMap_cons_some (ticked_active hstate), hdue]
    rfl
  · rw [hkept.elapsed, hstep.elapsed, haged]
  · rw [hkept.state, hstep.state]
    exact hstate
  · have hread : storey ∈ i.aged.storeysRead s k := by
      rw [Incident.storeysRead_sound hs]
      exact hstorey
    rw [get_withStep_demand s k i.aged hz, if_pos ⟨storey, hread, hzone⟩]
    exact (rank_le_max _ _).2

/-- Settles O34. -/
theorem incidentTickCounts : Obligations.IncidentTickCounts := by
  refine ⟨fun s hlaw hwaits => ?_, fun s => ?_, fun s i k hs hlist hstate hk hdelay hshort => ?_⟩
  · obtain ⟨t, hleaves, hincidents, hclear, hgeneral, hcounter, hedit, htimer, hsPort, hzPort⟩ :=
      incidentTick_counts hlaw hwaits
    refine ⟨t, hleaves, hincidents.trans (filterMap_eq_of_mem fun i hi => ?_), hclear, hgeneral, hcounter, hedit, htimer,
      hsPort, hzPort⟩
    rcases hstate : i.state with deadline | _ | _
    · exact ticked_confirming hstate
    · exact (ticked_active hstate).trans (congrArg some
        ((dueSteps_noneDue (i := i.aged) (hwaits i hi hstate) 256).trans (by rw [Incident.aged, hstate])))
    · exact ticked_held hstate
  · obtain ⟨t, hleaves, hincidents, hcounter, hgeneral, htimers, hquiet⟩ := incidentTick_any s
    refine ⟨t, hleaves, hincidents, hcounter, fun hnext => ?_, htimers, fun hs => ?_⟩
    · obtain ⟨fault, hset, hmeets⟩ := hgeneral hnext
      exact hset.trans (generalAfter_congr hmeets)
    · obtain ⟨hgeneral', hunit⟩ := hquiet hs
      refine ⟨hgeneral', hunit.trans ?_⟩
      rcases s.tables.edit <;> rfl
  · exact incidentTick_due hs hlist hstate hk hdelay hshort

end Sys2Proof.Machine
end

section
/-! SUPPORT. RESTART (R78, R80, R104, R121, R147, R167): what its stages leave of the counters, the holder records, the queues and
the faults. -/

namespace Sys2Proof.Machine

variable {s t u : State} {z y : Nat} {q : Sender} {zs : List Nat}

/-! ### The Fault List rebuilt (R167, stage 6) -/

namespace FaultUnit

/-- Several faults asked for in order. -/
def addAll (fs : List FaultId) (seconds : Nat) (u : FaultUnit) : FaultUnit := fs.foldl (fun v f => v.add f seconds) u

/-- Distinct faults that are not listed are listed in order while there is room, and the overflow flag says that one was not. -/
theorem addAll_list {fs : List FaultId} (seconds : Nat) (u : FaultUnit) (hnodup : fs.Nodup) (hroom : u.list.length ≤ 64)
    (hnew : ∀ f ∈ fs, ∀ e ∈ u.list, e.fault ≠ f) :
    (u.addAll fs seconds).list =
        u.list ++ ((fs.take (64 - u.list.length)).map fun f => { fault := f, stamp := seconds }) ∧
      (u.addAll fs seconds).overflow = (u.overflow || decide (64 < u.list.length + fs.length)) := by
  induction fs generalizing u with
  | nil =>
    have hfits : ¬64 < u.list.length := Nat.not_lt.mpr hroom
    simp [addAll, hfits]
  | cons f fs ih =>
    obtain ⟨hf, hfs⟩ := List.nodup_cons.mp hnodup
    have hunlisted : ¬∃ e ∈ u.list, e.fault = f := fun ⟨e, he, hfault⟩ => hnew f List.mem_cons_self e he hfault
    have hrest := fun g hg => hnew g (List.mem_cons_of_mem f hg)
    show (addAll fs seconds (u.add f seconds)).list = _ ∧ (addAll fs seconds (u.add f seconds)).overflow = _
    rcases Nat.lt_or_ge u.list.length 64 with hlt | hge
    · have hadded : (u.add f seconds).list = u.list ++ [{ fault := f, stamp := seconds }] ∧
          (u.add f seconds).overflow = u.overflow := by
        rw [add_of_room hunlisted hlt]
        exact take_list _ _
      obtain ⟨hlist, hoverflow⟩ := hadded
      have hlength : (u.add f seconds).list.length = u.list.length + 1 := by rw [hlist]; simp
      obtain ⟨hl, ho⟩ := ih (u.add f seconds) hfs (by omega) fun g hg e he => by
        rw [hlist] at he
        rcases List.mem_append.mp he with he | he
        · exact hrest g hg e he
        · rw [List.mem_singleton.mp he]
          exact fun h : f = g => hf (h ▸ hg)
      have htake : 64 - u.list.length = (64 - (u.list.length + 1)) + 1 := by omega
      rw [hl, ho, hlength, hlist, hoverflow, htake, List.take_succ_cons, List.length_cons]
      refine ⟨by simp, ?_⟩
      rw [Nat.add_assoc, Nat.add_comm 1]
    · have hadded : (u.add f seconds).list = u.list ∧ (u.add f seconds).overflow = true := by
        rw [add_of_full hunlisted hge]
        exact ⟨rfl, rfl⟩
      obtain ⟨hlist, hoverflow⟩ := hadded
      obtain ⟨hl, ho⟩ := ih (u.add f seconds) hfs (by rw [hlist]; exact hroom) (by rw [hlist]; exact hrest)
      have hzero : 64 - u.list.length = 0 := by omega
      have hover : 64 < u.list.length + (f :: fs).length := by rw [List.length_cons]; omega
      rw [hl, ho, hlist, hoverflow, hzero, decide_eq_true hover]
      simp

end FaultUnit

theorem addFaults_eq (fs : List FaultId) (s : State) : addFaults fs s = s.onFaultUnit (FaultUnit.addAll fs s.timer.seconds) := by
  unfold addFaults FaultUnit.addAll
  induction fs generalizing s with
  | nil => rfl
  | cons f fs ih => exact ih (addFault f s)

/-- The place of a fault's kind in the order of the faults listed again. -/
def standingKind : FaultId → Nat
  | .zLink => 0
  | .sourceLost _ => 1
  | .zoneDisabled _ => 2
  | _ => 3

theorem nodup_append_of_kind {l m : List FaultId} (n : Nat) (hl : l.Nodup) (hm : m.Nodup) (hbelow : ∀ f ∈ l, standingKind f < n)
    (hat : ∀ f ∈ m, standingKind f = n) : (l ++ m).Nodup :=
  List.nodup_append.mpr ⟨hl, hm, fun f hf g hg heq => Nat.ne_of_lt (hbelow f hf) (heq ▸ hat g hg)⟩

theorem markedInOrder_nodup (s : State) : (markedInOrder s).Nodup := by
  have htables : allTables.Pairwise (· ≠ ·) := by decide
  unfold markedInOrder
  refine List.pairwise_flatMap.mpr ⟨fun table _ => nodup_map (fun i j h => by simpa using h) (List.nodup_range.filter _),
    htables.imp fun hab r ha q hq heq => hab ?_⟩
  obtain ⟨i, -, rfl⟩ := List.mem_map.mp ha
  obtain ⟨j, -, rfl⟩ := List.mem_map.mp hq
  exact congrArg EntryRef.table heq

theorem nodup_map_indices {f : Nat → FaultId} (hf : Function.Injective f) (n : Nat) (p : Nat → Bool) :
    ((indices n p).map f).Nodup := nodup_map (fun _ _ h => hf h) (List.nodup_range.filter _)

theorem mem_map_kind {α : Type} {f : α → FaultId} {n : Nat} (hf : ∀ a, standingKind (f a) = n) (l : List α) :
    ∀ g ∈ l.map f, standingKind g = n := fun g hg => by
  obtain ⟨a, -, rfl⟩ := List.mem_map.mp hg
  exact hf a

theorem standingFaults_nodup (s : State) : (standingFaults s).Nodup := by
  have hlink : (if s.zPort.link = .down ∧ s.zPort.established = true then [FaultId.zLink] else []).Nodup := by
    split <;> simp
  have hlinkKind : ∀ f ∈ if s.zPort.link = .down ∧ s.zPort.established = true then [FaultId.zLink] else [],
      standingKind f = 0 := by
    split <;> simp [standingKind]
  have hsource := mem_map_kind (f := FaultId.sourceLost) (n := 1) (fun _ => rfl)
    (indices 32 fun c => decide (s.crosspoint.presence.get c = .lost))
  have hzone := mem_map_kind (f := FaultId.zoneDisabled) (n := 2) (fun _ => rfl)
    (indices 128 fun z => decide (3 ≤ s.arbiter.masks.get z))
  have hcorrupt := mem_map_kind (f := FaultId.tableCorrupt) (n := 3) (fun _ => rfl) (markedInOrder s)
  have hlow {l m : List FaultId} {n : Nat} (hl : ∀ f ∈ l, standingKind f < n) (hm : ∀ f ∈ m, standingKind f = n) :
      ∀ f ∈ l ++ m, standingKind f < n + 1 := fun f hf =>
    (List.mem_append.mp hf).elim (fun h => Nat.lt_succ_of_lt (hl f h)) fun h => by rw [hm f h]; exact Nat.lt_succ_self n
  have hfirst := hlow (n := 1) (fun f hf => by rw [hlinkKind f hf]; exact Nat.one_pos) hsource
  have hsecond := hlow hfirst hzone
  exact nodup_append_of_kind 3
    (nodup_append_of_kind 2
      (nodup_append_of_kind 1 hlink (nodup_map_indices (fun i j h => by simpa using h) _ _)
        (fun f hf => by rw [hlinkKind f hf]; exact Nat.one_pos) hsource)
      (nodup_map_indices (fun i j h => by simpa using h) _ _) hfirst hzone)
    (nodup_map (fun i j h => by simpa using h) (markedInOrder_nodup s)) hsecond hcorrupt

/-- The Fault List rebuilt holds the standing faults in order, as many as it has room for. -/
theorem rebuildFaults_unit (s : State) :
    (rebuildFaults s).faultUnit.list =
        ((standingFaults s).take 64).map (fun f => { fault := f, stamp := s.timer.seconds }) ∧
      (rebuildFaults s).faultUnit.overflow = decide (64 < (standingFaults s).length) := by
  unfold rebuildFaults
  rw [addFaults_eq]
  obtain ⟨hlist, hoverflow⟩ := FaultUnit.addAll_list s.timer.seconds { s.faultUnit with list := [], overflow := false }
    (standingFaults_nodup s) (Nat.zero_le _) fun _ _ _ he => nomatch he
  refine ⟨hlist.trans (List.nil_append _), hoverflow.trans ?_⟩
  simp

/-! ### Holder records of zones without a holder (R101) -/

/-- A zone with no holder has no holder record. -/
def NoneRecorded (s : State) : Prop := ∀ y < 128, s.arbiter.holders.get y = .none → s.crosspoint.records.get y = .none

theorem NoneRecorded.congr (h : NoneRecorded s) (hholders : t.arbiter.holders = s.arbiter.holders)
    (hrecords : t.crosspoint.records = s.crosspoint.records) : NoneRecorded t := by
  unfold NoneRecorded
  rw [hholders, hrecords]
  exact h

theorem NoneRecorded.giveHolder (h : NoneRecorded s) (z : Nat) (g : Holder) (level : Nat) :
    NoneRecorded (giveHolder z g level s) := by
  obtain ⟨-, hholders, hrecords, hwritten, hkept, -⟩ := giveHolder_given z g level s
  intro y hy hnone
  rw [hholders y hy] at hnone
  by_cases heq : z = y
  · subst heq
    rw [if_pos rfl] at hnone
    by_cases hsame : s.arbiter.holders.get z = g
    · rw [hkept hsame (by rw [hnone]; nofun)]
      exact h z hy (hsame.trans hnone)
    · rw [hwritten hy (.inl hsame), hnone]
      rfl
  · rw [if_neg heq] at hnone
    rw [hrecords y hy (Ne.symm heq)]
    exact h y hy hnone

theorem NoneRecorded.decideHolder (h : NoneRecorded s) (z : Nat) : NoneRecorded (decideHolder z s) :=
  decideHolder_cases (P := NoneRecorded) (fun g level _ => h.giveHolder z g level) fun g level _ =>
    NoneRecorded.giveHolder (s := s.onArbiter fun a => { a with reserved := none }) h z g level

theorem zoneDisabledCheck_beside (old z : Nat) (s : State) : (zoneDisabledCheck old z s).arbiter = s.arbiter ∧
    (zoneDisabledCheck old z s).crosspoint = s.crosspoint ∧ (zoneDisabledCheck old z s).tables = s.tables := by
  rw [zoneDisabledCheck_eq]
  exact ⟨rfl, rfl, rfl⟩

theorem touchZone_records (z : Nat) (s : State) : (touchZone z s).1.crosspoint.records = s.crosspoint.records := by
  by_cases hs : Sound s (zoneRef z)
  · rw [touchZone_sound hs]
  · rcases hm : s.marked (zoneRef z)
    · rw [touchZone_of_newlyMarked ⟨hs, hm⟩]
      show (zoneDisabledCheck _ z _).crosspoint.records = _
      rw [(zoneDisabledCheck_beside _ z _).2.1]
      rfl
    · rw [touchZone_of_marked hm]
      rfl

theorem NoneRecorded.touchZone (h : NoneRecorded s) (z : Nat) : NoneRecorded (touchZone z s).1 :=
  h.congr (by rw [touchZone_arbiter]) (touchZone_records z s)

/-! ### What work with no claim in the table leaves (R84, R88, R101) -/

/-- Work that starts without claims leaves none, asks for no confirmation and keeps the counters of stamps. -/
structure VacantWork (s t : State) : Prop where
  vacant : Vacant s → Vacant t
  arrival : Vacant s → t.arbiter.arrivalCounter = s.arbiter.arrivalCounter
  onAir : Vacant s → t.arbiter.onAirCounter = s.arbiter.onAirCounter
  confirm : Vacant s → t.arbiter.confirmCounter = s.arbiter.confirmCounter
  records : Vacant s → NoneRecorded s → NoneRecorded t

namespace VacantWork

theorem trans (h : VacantWork s t) (g : VacantWork t u) : VacantWork s u where
  vacant hs := g.vacant (h.vacant hs)
  arrival hs := (g.arrival (h.vacant hs)).trans (h.arrival hs)
  onAir hs := (g.onAir (h.vacant hs)).trans (h.onAir hs)
  confirm hs := (g.confirm (h.vacant hs)).trans (h.confirm hs)
  records hs hr := g.records (h.vacant hs) (h.records hs hr)

theorem refl (s : State) : VacantWork s s := ⟨id, fun _ => rfl, fun _ => rfl, fun _ => rfl, fun _ h => h⟩

/-- Work that leaves the claims, the counters, the holders and their records. -/
theorem of_blocks (hclaims : t.arbiter.claims = s.arbiter.claims)
    (harrival : t.arbiter.arrivalCounter = s.arbiter.arrivalCounter) (honAir : t.arbiter.onAirCounter = s.arbiter.onAirCounter)
    (hconfirm : t.arbiter.confirmCounter = s.arbiter.confirmCounter) (hholders : t.arbiter.holders = s.arbiter.holders)
    (hrecords : t.crosspoint.records = s.crosspoint.records) : VacantWork s t where
  vacant hs k := by rw [hclaims]; exact hs k
  arrival _ := harrival
  onAir _ := honAir
  confirm _ := hconfirm
  records _ h := h.congr hholders hrecords

theorem touchZone (z : Nat) (s : State) : VacantWork s (touchZone z s).1 := by
  refine of_blocks ?_ ?_ ?_ ?_ ?_ (touchZone_records z s)
  all_goals rw [touchZone_arbiter]

theorem touchZones (zs : List Nat) (s : State) : VacantWork s (touchZones zs s).1 := by
  induction zs generalizing s with
  | nil => exact refl s
  | cons z zs ih =>
    rw [(touchZones_cons z zs s).1]
    exact (touchZone z s).trans (ih _)

theorem chooseHolder (z : Nat) (s : State) : VacantWork s (chooseHolder z s) where
  vacant := (Rearranged.chooseHolders [z] s).vacant
  arrival _ := (StampsStay.chooseHolder z s).arrival
  onAir _ := (StampsStay.chooseHolder z s).onAir
  confirm _ := chooseHolders_confirmCounter [z] s
  records _ h := by
    unfold Machine.chooseHolder
    split
    · exact (h.touchZone z).decideHolder z
    · exact h.decideHolder z

theorem foldl {α : Type} {f : State → α → State} (h : ∀ t a, VacantWork t (f t a)) (l : List α) (s : State) :
    VacantWork s (l.foldl f s) := by
  induction l generalizing s with
  | nil => exact refl s
  | cons a l ih => exact (h s a).trans (ih (f s a))

theorem chooseHolders (zs : List Nat) (s : State) : VacantWork s (chooseHolders zs s) := foldl (fun t z => chooseHolder z t) zs s

theorem testPending (s : State) : VacantWork s (testPending s) :=
  ⟨fun hs => by rwa [hs.testPending], fun hs => by rw [hs.testPending], fun hs => by rw [hs.testPending],
    fun hs => by rw [hs.testPending], fun hs h => by rwa [hs.testPending]⟩

theorem choiceEvent (zs : List Nat) (s : State) : VacantWork s (choiceEvent zs s) := by
  unfold Machine.choiceEvent
  split
  · exact refl s
  · exact (chooseHolders zs s).trans (testPending _)

theorem takePlanClaims (changes : List (Nat × Option PlanKind)) (s : State) : VacantWork s (takePlanClaims changes s) :=
  VacantWork.trans (t := s.onArbiter fun a => { a with planClaims := changes.foldl (fun p c => p.set c.1 c.2) a.planClaims })
    (of_blocks rfl rfl rfl rfl rfl rfl) (choiceEvent _ _)

theorem zoneDisabledCheck (old z : Nat) (s : State) : VacantWork s (zoneDisabledCheck old z s) := by
  obtain ⟨harbiter, hcrosspoint, -⟩ := zoneDisabledCheck_beside old z s
  refine of_blocks ?_ ?_ ?_ ?_ ?_ (by rw [hcrosspoint])
  all_goals rw [harbiter]

theorem chooseAndCheck (old : Tab Nat 128) (zs : List Nat) (s : State) : VacantWork s (chooseAndCheck old zs s) :=
  foldl (fun t z => (chooseHolder z t).trans (zoneDisabledCheck (old.get z) z _)) zs s

theorem takeBaseValues (s : State) : VacantWork s (takeBaseValues s) := by
  unfold Machine.takeBaseValues
  have hset (t : State) : VacantWork t (setBaseValues t) := of_blocks rfl rfl rfl rfl rfl rfl
  exact (((touchZones _ s).trans (hset _)).trans (chooseAndCheck _ _ _)).trans (testPending _)

theorem releaseAny (s : State) : VacantWork s (releaseAny s) := by
  unfold Machine.releaseAny
  rcases h : s.arbiter.reserved with _ | z
  · exact refl s
  · show VacantWork s (releaseReservation z s)
    rw [releaseReservation, if_pos h]
    exact VacantWork.trans (t := s.onArbiter fun a => { a with reserved := none }) (of_blocks rfl rfl rfl rfl rfl rfl)
      (choiceEvent _ _)

theorem engineEvent {f : Engine → Engine} (s : State) : VacantWork s (engineEvent (fun t => t.onEngine f) s) := by
  have hf : VacantWork s (s.onEngine f) := of_blocks rfl rfl rfl rfl rfl rfl
  by_cases h : planChanges s.engine (f s.engine) = []
  · rw [engineEvent_nil h]
    exact hf
  · rw [engineEvent_some h]
    exact hf.trans (takePlanClaims _ _)

end VacantWork

/-- With every claim dropped the counters are as they were and the zones without a holder have no record. -/
theorem dropAll_counters (reason : DropReason) (s : State) :
    (dropAll reason s).arbiter.arrivalCounter = s.arbiter.arrivalCounter ∧
      (dropAll reason s).arbiter.onAirCounter = s.arbiter.onAirCounter ∧
      (dropAll reason s).arbiter.confirmCounter = s.arbiter.confirmCounter ∧
      (NoneRecorded s → NoneRecorded (dropAll reason s)) := by
  obtain ⟨u, rfl, hvacant, h⟩ := dropAll_eq reason s
  have hwork := VacantWork.chooseHolders (heldBy (s.onFaultUnit (dropNotices reason (usedSlots s) s)) (usedSlots s))
    ((s.onFaultUnit (dropNotices reason (usedSlots s) s)).onArbiter (Arbiter.emptied (usedSlots s)))
  rw [h]
  exact ⟨hwork.arrival hvacant, hwork.onAir hvacant, hwork.confirm hvacant, hwork.records hvacant⟩

/-! ### Base values taken (R3, R80, R121) -/

/-- Work of the arbiter by which no zone's mask and trim change but by its marking. -/
structure BaseKept (s t : State) : Prop extends Worked s t where
  zone : ∀ z < 128, ZoneKept z s t

namespace BaseKept

theorem refl (s : State) : BaseKept s s := ⟨.refl s, (UsesOf.refl s).zone⟩

theorem trans (h : BaseKept s t) (g : BaseKept t u) : BaseKept s u :=
  ⟨h.toWorked.trans g.toWorked, fun z hz => (h.zone z hz).trans (g.zone z hz)⟩

theorem foldl {α : Type} {f : State → α → State} {l : List α} (h : ∀ a ∈ l, ∀ t, BaseKept t (f t a)) (s : State) :
    BaseKept s (l.foldl f s) := by
  induction l generalizing s with
  | nil => exact refl s
  | cons a l ih => exact (h a (by simp) s).trans (ih (fun b hb => h b (by simp [hb])) (f s a))

theorem zoneDisabledCheck (old z : Nat) (s : State) : BaseKept s (zoneDisabledCheck old z s) := by
  obtain ⟨harbiter, hcrosspoint, htables⟩ := zoneDisabledCheck_beside old z s
  exact ⟨zoneDisabledCheck_worked old z s, fun y _ =>
    .inl ⟨by rw [State.marked, htables, State.marked], by rw [harbiter], by rw [hcrosspoint]⟩⟩

theorem chooseAndCheck (old : Tab Nat 128) (hzs : ∀ z ∈ zs, z < 128) (s : State) : BaseKept s (chooseAndCheck old zs s) :=
  foldl (f := fun t z => Machine.zoneDisabledCheck (old.get z) z (chooseHolder z t)) (fun z hz t =>
    BaseKept.trans ⟨chooseHolder_worked z t, (UsesOf.chooseHolder (hzs z hz) t).zone⟩ (zoneDisabledCheck _ z _)) s

/-- The mask and trim of a zone whose record no use marks stay. -/
theorem settled (h : BaseKept s t) (hz : z < 128) (hsettled : Settled s z) :
    t.marked (zoneRef z) = s.marked (zoneRef z) ∧ t.arbiter.masks.get z = s.arbiter.masks.get z ∧
      t.crosspoint.trims.get z = s.crosspoint.trims.get z := by
  rcases h.zone z hz with hkept | ⟨hunmarked, hmarked, -⟩
  · exact hkept
  · rcases hsettled with hsound | hset
    · rw [((h.sound (zoneRef z)).mpr hsound).1] at hmarked
      cases hmarked
    · rw [hset] at hunmarked
      cases hunmarked

end BaseKept

/-- The mask and trim of a zone once base values have been taken from `s`: those of its record, 0 where that is not sound. -/
structure BaseTaken (z : Nat) (s t : State) : Prop where
  marked : t.marked (zoneRef z) = true ↔ ¬Sound s (zoneRef z)
  mask : t.arbiter.masks.get z = if t.marked (zoneRef z) then 0 else (s.tables.fields.zones.get z).baseMask
  trim : t.crosspoint.trims.get z = if t.marked (zoneRef z) then 0 else (s.tables.fields.zones.get z).baseTrim

theorem BaseTaken.of_settled (hz : z < 128) (hworked : Worked s u) (hsettled : Settled u z)
    (hkept : BaseKept (setBaseValues u) t) : BaseTaken z s t := by
  obtain ⟨hmarked, hmask, htrim⟩ := hkept.settled hz hsettled
  refine ⟨?_, ?_, ?_⟩
  · rw [hmarked, ← hworked.sound]
    refine ⟨fun hm hsound => ?_, fun hunsound => hsettled.resolve_left hunsound⟩
    have hboth : u.marked (zoneRef z) = true := hm
    rw [hsound.1] at hboth
    cases hboth
  · rw [hmask, hmarked, ← hworked.fields]
    exact baseValues_get _ hz
  · rw [htrim, hmarked, ← hworked.fields]
    exact baseValues_get _ hz

theorem chooseAndCheck_taken (old : Tab Nat 128) (hzs : ∀ z ∈ zs, z < 128) (hz : z ∈ zs) (s : State) :
    BaseTaken z s (chooseAndCheck old zs (setBaseValues (touchZones zs s).1)) :=
  .of_settled (hzs z hz) (touchZones_worked zs s) (settled_touchZones hz s) (.chooseAndCheck old hzs _)

theorem chooseAndCheck_tested (old : Tab Nat 128) (zs : List Nat) (h : Vacant s) :
    testPending (chooseAndCheck old zs (setBaseValues (touchZones zs s).1)) =
      chooseAndCheck old zs (setBaseValues (touchZones zs s).1) := by
  have htouched := (VacantWork.touchZones zs s).vacant h
  exact ((VacantWork.chooseAndCheck old zs (setBaseValues (touchZones zs s).1)).vacant htouched).testPending

theorem takeBaseValues_taken (h : Vacant s) (hz : z < 128) : BaseTaken z s (takeBaseValues s) := by
  rw [takeBaseValues, chooseAndCheck_tested _ _ h]
  exact chooseAndCheck_taken _ (fun _ => List.mem_range.mp) (List.mem_range.mpr hz) s

/-- With no claim and no plan claim, taking base values leaves every zone without a holder. -/
theorem takeBaseValues_holders (h : Vacant s) (hplan : s.arbiter.planClaims.get z = none) (hreserved : s.arbiter.reserved = none)
    (hz : z < 128) : (takeBaseValues s).arbiter.holders.get z = .none := by
  have hkept : Kept .none .every s .empty (takeBaseValues s) := .takeBaseValues
  have hvacant := (VacantWork.takeBaseValues s).vacant h
  generalize takeBaseValues s = t at hkept hvacant
  have hlaw : HolderLaw t z := hkept.holder (fun y _ hy => absurd trivial hy) z hz (id)
  have hreserved' : t.arbiter.reserved ≠ some z := by
    rcases hkept.reserved id with h | h
    · rw [h]; nofun
    · rw [h, hreserved]; nofun
  have hplanNone : planCandidate t z = none := by
    rw [planCandidate, hkept.plan id, hplan]
  rw [hlaw.winner hreserved', winner_of_no_candidate hplanNone fun k _ => by rw [candidate, hvacant k]]

/-! ### The parts of RESTART that the arbiter's choices are not in -/

/-- What every stage of RESTART leaves as it was. -/
structure RestartBeside (s t : State) : Prop where
  timer : t.timer = s.timer
  sPort : t.sPort = s.sPort
  zPort : t.zPort = s.zPort
  fields : t.tables.fields = s.tables.fields
  coded : t.tables.coded = s.tables.coded
  codeFlips : t.tables.codeFlips = s.tables.codeFlips
  presence : t.crosspoint.presence = s.crosspoint.presence
  runs : t.crosspoint.runs = s.crosspoint.runs
  samples : t.crosspoint.samples = s.crosspoint.samples
  marks : ∀ r, s.marked r = true → t.marked r = true
  marksOnly : ∀ r, t.marked r = true → s.marked r = true ∨ s.passes r = false
  enabled : t.faultUnit.enabled = s.faultUnit.enabled
  sequence : s.faultUnit.enabled = false → t.faultUnit.sequence = s.faultUnit.sequence

theorem FaultUnit.take_disabled {v : FaultUnit} (h : v.enabled = false) (n : Notice) : v.take n = v := if_pos h

theorem FaultSteps.sequence {u v : FaultUnit} (h : FaultSteps u v) (hu : u.enabled = false) : v.sequence = u.sequence := by
  have hboth : v.enabled = false ∧ v.sequence = u.sequence := by
    refine h.keeps (fun w => w.enabled = false ∧ w.sequence = u.sequence) (fun n w hw => ?_) (fun f k w hw => ?_)
      (fun f k w hw => ?_) ⟨hu, rfl⟩
    · rwa [FaultUnit.take_disabled hw.1]
    · obtain ⟨hoff, hsame⟩ := hw
      refine ⟨(FaultUnit.add_enabled f k w).trans hoff, ?_⟩
      unfold FaultUnit.add
      split
      · exact hsame
      · split
        · rw [FaultUnit.take_disabled (by exact hoff)]
          exact hsame
        · exact hsame
    · obtain ⟨hoff, hsame⟩ := hw
      refine ⟨(FaultUnit.remove_enabled f k w).trans hoff, ?_⟩
      unfold FaultUnit.remove
      split
      · rw [FaultUnit.take_disabled (by exact hoff)]
        exact hsame
      · exact hsame
  exact hboth.2

namespace RestartBeside

theorem of_worked (h : Worked s t) : RestartBeside s t :=
  { h.toBeside with sequence := h.faults.sequence }

theorem refl (s : State) : RestartBeside s s := of_worked (.refl s)

theorem passes (h : RestartBeside s t) (r : EntryRef) : t.passes r = s.passes r := by
  unfold State.passes
  rw [h.fields, h.coded, h.codeFlips]

theorem trans (h : RestartBeside s t) (g : RestartBeside t u) : RestartBeside s u where
  timer := g.timer.trans h.timer
  sPort := g.sPort.trans h.sPort
  zPort := g.zPort.trans h.zPort
  fields := g.fields.trans h.fields
  coded := g.coded.trans h.coded
  codeFlips := g.codeFlips.trans h.codeFlips
  presence := g.presence.trans h.presence
  runs := g.runs.trans h.runs
  samples := g.samples.trans h.samples
  marks r hr := g.marks r (h.marks r hr)
  marksOnly r hr := (g.marksOnly r hr).elim (h.marksOnly r) fun hp => .inr ((h.passes r).symm.trans hp)
  enabled := g.enabled.trans h.enabled
  sequence hoff := (g.sequence (h.enabled.trans hoff)).trans (h.sequence hoff)

theorem sound (h : RestartBeside s t) (r : EntryRef) : Sound t r ↔ Sound s r := by
  unfold Sound
  rw [h.passes]
  constructor
  · rintro ⟨hm, hp⟩
    refine ⟨Bool.eq_false_iff.mpr fun hs => ?_, hp⟩
    rw [h.marks r hs] at hm
    cases hm
  · rintro ⟨hm, hp⟩
    refine ⟨Bool.eq_false_iff.mpr fun ht => ?_, hp⟩
    rcases h.marksOnly r ht with hs | hs
    · rw [hs] at hm
      cases hm
    · rw [hs] at hp
      cases hp

/-- Work on the engine, the Sequencer, the router and the edit. -/
theorem of_blocks (htimer : t.timer = s.timer) (hsPort : t.sPort = s.sPort) (hzPort : t.zPort = s.zPort)
    (htables : { t.tables with edit := s.tables.edit } = s.tables) (hcrosspoint : t.crosspoint = s.crosspoint)
    (hunit : t.faultUnit = s.faultUnit) : RestartBeside s t := by
  have hfields := congrArg TableStore.fields htables
  have hcoded := congrArg TableStore.coded htables
  have hflips := congrArg TableStore.codeFlips htables
  have hmarks := congrArg TableStore.marks htables
  have hmarked (r : EntryRef) : t.marked r = s.marked r := by
    unfold State.marked
    exact congrArg (fun l => decide (r ∈ l)) hmarks
  exact ⟨htimer, hsPort, hzPort, hfields, hcoded, hflips, by rw [hcrosspoint], by rw [hcrosspoint], by rw [hcrosspoint],
    fun r h => (hmarked r).trans h, fun r h => .inl ((hmarked r).symm.trans h), by rw [hunit], fun _ => by rw [hunit]⟩

end RestartBeside

end Sys2Proof.Machine
end

section
/-! SUPPORT. RESTART as a request: its stages in order, and the state it leaves (R167). -/

namespace Sys2Proof.Machine

variable {s t u : State} {z : Nat} {q : Sender}

/-! ### The edit closed (R167, stage 2) -/

/-- The places once RESTART has closed the edit: the commit that is VALIDATING is answered. -/
def placesClosed (edit : Option Edit) (r : Router) : List Place :=
  match edit with
  | some e => if e.phase.isValidating then fillPlace .commit r.address (.response 10 .noEdit []) r.places else r.places
  | none => r.places

theorem closeEdit_eq (s : State) : closeEdit s =
    { s with router := { s.router with places := placesClosed s.tables.edit s.router }
             tables := { s.tables with edit := none } } := by
  unfold closeEdit placesClosed
  rcases hedit : s.tables.edit with _ | e
  · show s = { s with tables := { s.tables with edit := none } }
    rw [← hedit]
  · dsimp only
    unfold answerEnded
    split <;> rfl

theorem placesClosed_reserved (edit : Option Edit) (q : Sender) (r : Router) :
    placesClosed edit { r with places := r.places ++ [.reserved .command q] } =
      placesClosed edit r ++ [.reserved .command q] := by
  unfold placesClosed
  rcases edit with _ | e
  · rfl
  · dsimp only
    split
    · exact fillPlace_other (by decide) _ _ q _
    · rfl

theorem handLaw_placesClosed (h : HandLaw s.router) (edit : Option Edit) (cs : List ConfirmRequest) :
    HandLaw { s.router with confirms := cs, places := placesClosed edit s.router } := by
  rcases edit with _ | e
  · exact h
  · unfold placesClosed
    dsimp only
    split
    · exact (handLaw_fillPlace h .commit _ _).of_places rfl
    · exact h

theorem fillPlace_none {w : Waiting} {source : Nat} {body : AnswerBody} {l : List Place} (h : ∀ q, Place.reserved w q ∉ l) :
    fillPlace w source body l = l := by
  have happend := fillPlace_append (source := source) (body := body) (m := []) h
  simpa [fillPlace] using happend

/-! ### The stages of RESTART -/

/-- The Sequencer at its starting values. -/
def sequencerStarted (s : State) : State := s.onSequencer fun q => .start q.reportsAvailable

/-- Every all-clear timer stopped. -/
def Engine.unclear (e : Engine) : Engine := { e with allClear := .const 0 }

theorem RestartBeside.sequencerStarted (s : State) : RestartBeside s (sequencerStarted s) :=
  .of_blocks rfl rfl rfl rfl rfl rfl

theorem RestartBeside.onEngine (f : Engine → Engine) (s : State) : RestartBeside s (s.onEngine f) :=
  .of_blocks rfl rfl rfl rfl rfl rfl

/-- RESTART up to the Sequencer's stage. -/
def restartBlocks (s : State) : State := restartSequencer (closeEdit (dropAll .restart s))

/-- RESTART up to the base values. -/
def restartBase (s : State) : State := takeBaseValues (stopAllClear (restartBlocks s))

theorem restart_eq (s : State) : restart s = emptyConfirms (emptyNotices (rebuildFaults (restartBase s))) := rfl

theorem closeEdit_beside (s : State) : RestartBeside s (closeEdit s) := by
  rw [closeEdit_eq]
  exact .of_blocks rfl rfl rfl rfl rfl rfl

theorem releaseAny_worked (s : State) : Worked s (releaseAny s) := by
  unfold releaseAny
  split
  · exact releaseReservation_worked _ s
  · exact .refl s

theorem releaseAny_reserved (s : State) : (releaseAny s).arbiter.reserved = none := by
  unfold releaseAny
  rcases h : s.arbiter.reserved with _ | z
  · exact h
  · exact releaseReservation_none h

theorem restartBlocks_beside (s : State) : RestartBeside s (restartBlocks s) :=
  ((RestartBeside.of_worked (dropAll_worked .restart s)).trans (closeEdit_beside _)).trans
    ((RestartBeside.sequencerStarted _).trans (.of_worked (releaseAny_worked _)))

theorem stopAllClear_worked (s : State) : Worked (s.onEngine Engine.unclear) (stopAllClear s) :=
  engineEvent_worked (fun t => t.onEngine Engine.unclear) s

theorem restartBase_worked (s : State) : Worked ((restartBlocks s).onEngine Engine.unclear) (restartBase s) :=
  (stopAllClear_worked _).trans (takeBaseValues_worked _)

theorem restartBase_beside (s : State) : RestartBeside s (restartBase s) :=
  (restartBlocks_beside s).trans
    ((RestartBeside.onEngine Engine.unclear _).trans (.of_worked (restartBase_worked s)))

/-- What the first stages leave in the arbiter, the Sequencer, the engine and the router. -/
structure BlocksRestarted (s t : State) : Prop where
  vacant : Vacant t
  reserved : t.arbiter.reserved = none
  planClaims : t.arbiter.planClaims = s.arbiter.planClaims
  arrival : t.arbiter.arrivalCounter = s.arbiter.arrivalCounter
  onAir : t.arbiter.onAirCounter = s.arbiter.onAirCounter
  confirm : t.arbiter.confirmCounter = s.arbiter.confirmCounter
  records : NoneRecorded s → NoneRecorded t
  sequencer : t.sequencer = .start s.sequencer.reportsAvailable
  engine : t.engine = s.engine
  edit : t.tables.edit = none
  router : { t.router with confirms := [] } =
    { s.router with confirms := [], places := placesClosed s.tables.edit s.router }

/-- The blocks with the edit closed and the Sequencer at its starting values. -/
def closedStarted (s : State) : State :=
  { s with
    router := { s.router with places := placesClosed s.tables.edit s.router }
    tables := { s.tables with edit := none }
    sequencer := .start s.sequencer.reportsAvailable }

theorem restartBlocks_eq (s : State) : restartBlocks s = releaseAny (closedStarted (dropAll .restart s)) := by
  unfold restartBlocks restartSequencer
  rw [closeEdit_eq]
  rfl

theorem restartBlocks_work (s : State) : BlocksRestarted s (restartBlocks s) := by
  have hdropped : Kept .none .empty s .empty (dropAll .restart s) := .dropAll .restart
  have hworked := dropAll_worked .restart s
  have hvacant := dropAll_vacant .restart s
  have hrouter := dropAll_router .restart s
  obtain ⟨harrival, honAir, hconfirm, hrecords⟩ := dropAll_counters .restart s
  rw [restartBlocks_eq]
  generalize dropAll .restart s = d at *
  have hclosed : VacantWork d (closedStarted d) := .of_blocks rfl rfl rfl rfl rfl rfl
  have hwork := hclosed.trans (.releaseAny (closedStarted d))
  have hkept : Kept .none .empty (closedStarted d) .empty (releaseAny (closedStarted d)) := .releaseAny
  have hreleased := releaseAny_worked (closedStarted d)
  exact
    { vacant := hwork.vacant hvacant
      reserved := releaseAny_reserved _
      planClaims := (hkept.plan id).trans (hdropped.plan id)
      arrival := (hwork.arrival hvacant).trans harrival
      onAir := (hwork.onAir hvacant).trans honAir
      confirm := (hwork.confirm hvacant).trans hconfirm
      records := fun h => hwork.records hvacant (hrecords h)
      sequencer := by
        rw [hkept.sequencer id, ← hdropped.sequencer id]
        rfl
      engine := hreleased.engine.trans hworked.engine
      edit := hreleased.edit
      router := by
        have hconfirms := congrArg (fun r : Router => { r with confirms := [] }) hreleased.router
        refine hconfirms.trans ?_
        show { d.router with confirms := [], places := placesClosed d.tables.edit d.router } = _
        rw [hrouter, hworked.edit] }

/-! ### The state RESTART leaves -/

theorem stopAllClear_arbiter (s : State) : VacantWork s (stopAllClear s) ∧ (stopAllClear s).sequencer = s.sequencer ∧
    (s.arbiter.reserved = none → (stopAllClear s).arbiter.reserved = none) := by
  refine ⟨VacantWork.engineEvent (f := Engine.unclear) s, ?_⟩
  have hkept : Kept ⟨True, False, False, False⟩ .empty (s.onEngine Engine.unclear) .empty (stopAllClear s) := by
    by_cases h : planChanges s.engine (s.onEngine Engine.unclear).engine = []
    · rw [show stopAllClear s = _ from engineEvent_nil (f := fun t => t.onEngine Engine.unclear) h]
      exact .refl _ _ _
    · rw [show stopAllClear s = _ from engineEvent_some (f := fun t => t.onEngine Engine.unclear) h]
      exact .takePlanClaims trivial _
  refine ⟨hkept.sequencer id, fun hnone => ?_⟩
  rcases hkept.reserved id with h | h
  · exact h
  · exact h.trans hnone

theorem stopAllClear_planClaims (hlaw : DemandLaw s.engine) (hplan : PlanClaimLaw s) (hincidents : s.engine.incidents = [])
    (hgeneral : s.engine.general = none) (hz : z < 128) : (stopAllClear s).arbiter.planClaims.get z = none := by
  have hkept : PlanClaimLaw (stopAllClear s) := PlanClaimLaw.engineEvent (f := fun t => t.onEngine Engine.unclear) hplan rfl
  have hengine : (stopAllClear s).engine = s.engine.unclear := (stopAllClear_worked s).engine
  have hdemand : s.engine.demand.get z = .none :=
    (hlaw.formed z hz).trans (formed_eq_none.mpr ⟨hgeneral, by rw [hincidents]; nofun⟩)
  have hclear : s.engine.unclear.allClear.get z = 0 := Tab.get_const 0 hz
  rw [hkept z hz, hengine, Engine.planClaim, hclear]
  show planClaimOf (s.engine.demand.get z) 0 = none
  rw [hdemand]
  rfl

/-- What RESTART leaves, before the faults are listed again and the queues emptied. -/
structure Restarted (s t : State) : Prop extends RestartBeside s t where
  vacant : Vacant t
  reserved : t.arbiter.reserved = none
  edit : t.tables.edit = none
  engine : t.engine = s.engine.unclear
  zones : DemandLaw s.engine → PlanClaimLaw s → s.engine.incidents = [] → s.engine.general = none → ∀ z < 128,
    t.arbiter.planClaims.get z = none ∧ t.arbiter.holders.get z = .none ∧
      (NoneRecorded s → t.crosspoint.records.get z = .none)
  sequencer : t.sequencer = .start s.sequencer.reportsAvailable
  router : { t.router with confirms := [] } =
    { s.router with confirms := [], places := placesClosed s.tables.edit s.router }
  arrival : t.arbiter.arrivalCounter = s.arbiter.arrivalCounter
  onAir : t.arbiter.onAirCounter = s.arbiter.onAirCounter
  confirm : t.arbiter.confirmCounter = s.arbiter.confirmCounter
  base : ∀ z < 128, BaseTaken z s t

theorem BaseTaken.congr (h : BaseTaken z s t) (hsound : Sound s (zoneRef z) ↔ Sound u (zoneRef z))
    (hfields : s.tables.fields = u.tables.fields) : BaseTaken z u t :=
  ⟨h.marked.trans (not_congr hsound), by rw [← hfields]; exact h.mask, by rw [← hfields]; exact h.trim⟩

theorem restartBase_work (s : State) : Restarted s (restartBase s) := by
  have hblocks := restartBlocks_work s
  have hbeside := restartBlocks_beside s
  have hall := restartBase_beside s
  have hworked := restartBase_worked s
  unfold restartBase at *
  generalize restartBlocks s = r at *
  obtain ⟨hstopWork, hstopSequencer, hstopReserved⟩ := stopAllClear_arbiter r
  have hstopped : RestartBeside r (stopAllClear r) :=
    (RestartBeside.onEngine Engine.unclear r).trans (.of_worked (stopAllClear_worked r))
  have hwork := hstopWork.trans (.takeBaseValues _)
  have hkept : Kept .none .every (stopAllClear r) .empty (takeBaseValues (stopAllClear r)) := .takeBaseValues
  have hvacant := hstopWork.vacant hblocks.vacant
  have hreserved := hstopReserved hblocks.reserved
  have hholders (z : Nat) (hz : z < 128) (hplan : (stopAllClear r).arbiter.planClaims.get z = none) :=
    takeBaseValues_holders hvacant hplan hreserved hz
  have htaken (z : Nat) (hz : z < 128) := takeBaseValues_taken hvacant hz
  generalize takeBaseValues (stopAllClear r) = t at *
  exact
    { toRestartBeside := hall
      vacant := hwork.vacant hblocks.vacant
      reserved := (hkept.reserved id).elim id fun h => h.trans hreserved
      edit := hworked.edit.trans hblocks.edit
      engine := hworked.engine.trans (congrArg Engine.unclear hblocks.engine)
      zones := fun hlaw hplan hincidents hgeneral z hz => by
        have hplan' : PlanClaimLaw r := hplan.congr hblocks.planClaims fun z _ => by rw [hblocks.engine]
        have hnone := stopAllClear_planClaims (by rwa [hblocks.engine]) hplan' (by rwa [hblocks.engine])
          (by rwa [hblocks.engine]) hz
        have hholder := hholders z hz hnone
        exact ⟨(congrArg (Tab.get · z) (hkept.plan id)).trans hnone, hholder, fun hrecords =>
          hwork.records hblocks.vacant (hblocks.records hrecords) z hz hholder⟩
      sequencer := (hkept.sequencer id).trans (hstopSequencer.trans hblocks.sequencer)
      router := (congrArg (fun r : Router => { r with confirms := [] }) hworked.router).trans hblocks.router
      arrival := (hwork.arrival hblocks.vacant).trans hblocks.arrival
      onAir := (hwork.onAir hblocks.vacant).trans hblocks.onAir
      confirm := (hwork.confirm hblocks.vacant).trans hblocks.confirm
      base := fun z hz => (htaken z hz).congr ((hstopped.sound _).trans (hbeside.sound _))
        (hstopped.fields.trans hbeside.fields) }

/-! ### RESTART as a request -/

/-- The Fault List that RESTART leaves for the blocks as they stand at `s` (R167, stage 6). -/
theorem rebuildFaults_steps (s : State) : ∃ v, rebuildFaults s = { s with faultUnit := v } ∧
    v.enabled = s.faultUnit.enabled ∧ (s.faultUnit.enabled = false → v.sequence = s.faultUnit.sequence) := by
  have hsteps (fs : List FaultId) (u : FaultUnit) : FaultSteps u (u.addAll fs s.timer.seconds) := by
    unfold FaultUnit.addAll
    induction fs generalizing u with
    | nil => exact .refl
    | cons f fs ih => exact FaultSteps.trans (.add f _ .refl) (ih _)
  have hadded := hsteps (standingFaults s) { s.faultUnit with list := [], overflow := false }
  exact ⟨_, addFaults_eq _ _, hadded.enabled, fun hoff => hadded.sequence hoff⟩

/-- RESTART answered: the faults listed again, the queues emptied, the answer in its place. -/
theorem restart_answered (h : Heard q .configure s) (hincidents : s.engine.incidents = []) (hgeneral : s.engine.general = none) :
    ∃ b v, Restarted (taken q s) b ∧ rebuildFaults b = { b with faultUnit := v } ∧
      v.enabled = s.faultUnit.enabled ∧ (s.faultUnit.enabled = false → v.sequence = s.faultUnit.sequence) ∧
      restartRequest q s =
        { b with
          faultUnit := { v with queue := [], overrun := false }
          router := { s.router with
            confirms := []
            places := placesClosed s.tables.edit s.router ++ [.filled (answerTo q s.router.address (.response 23 .ok []))] } } := by
  have hwork := restartBase_work (taken q s)
  have hquiet : (taken q s).quiet = true := by
    rw [State.quiet, taken_engine, hincidents, hgeneral]
    rfl
  have hrestart : restartRequest q s = giveAnswer .command (.response 23 .ok []) (restart (taken q s)) :=
    h.request_worked (if_pos hquiet)
  have hunit : RestartBeside s (taken q s) :=
    (RestartBeside.of_worked (lookedUp_worked q s)).trans (.of_blocks rfl rfl rfl rfl rfl rfl)
  rw [restart_eq] at hrestart
  generalize restartBase (taken q s) = b at *
  obtain ⟨v, hrebuilt, henabled, hsequence⟩ := rebuildFaults_steps b
  have hall := hunit.trans hwork.toRestartBeside
  have hrouter : { b.router with confirms := [] } =
      { s.router with confirms := [], places := placesClosed s.tables.edit s.router ++ [.reserved .command q] } := by
    refine hwork.router.trans ?_
    have hreserved : (taken q s).router = { s.router with places := s.router.places ++ [.reserved .command q] } := by
      show (reservePlace q (lookedUp q s)).router = _
      rw [← (lookedUp_beside q s).1]
      rfl
    rw [hreserved, taken_edit, placesClosed_reserved]
  refine ⟨b, v, hwork, hrebuilt, henabled.trans hall.enabled, fun hoff => ?_, hrestart.trans ?_⟩
  · exact (hsequence (hall.enabled.trans hoff)).trans (hall.sequence hoff)
  · rw [hrebuilt]
    exact giveAnswer_of_router (handLaw_placesClosed h.hand s.tables.edit []) hrouter

theorem standingFaults_eq (s : State) : standingFaults s =
    (if s.zPort.link = .down ∧ s.zPort.established = true then [.zLink] else []) ++
      ((List.range 32).filter fun c => decide (s.crosspoint.presence.get c = .lost)).map FaultId.sourceLost ++
      ((List.range 128).filter fun z => decide (3 ≤ s.arbiter.masks.get z)).map FaultId.zoneDisabled ++
      [TableName.header, .storey, .zoneRecord, .detection, .plan, .step, .translation, .defaultChannel,
        .authority].flatMap fun table =>
          ((List.range (tableEntries table)).filter fun i => s.marked { table := table, index := i }).map fun i =>
            FaultId.tableCorrupt { table := table, index := i } := by
  unfold standingFaults markedInOrder
  rw [List.map_flatMap]
  simp only [List.map_map]
  rfl

/-- Settles O60. -/
theorem restartStartsAfresh : Obligations.RestartStartsAfresh := by
  intro q s h u
  refine ⟨fun hbusy => ?_, fun hincidents hgeneral => ?_⟩
  · have hbusy' : ¬(taken q s).quiet = true := by
      rw [State.quiet, taken_engine]
      simp only [Bool.and_eq_true, List.isEmpty_iff, Option.isNone_iff_eq_none, Classical.not_and_iff_not_or_not]
      exact hbusy
    exact congrArg settled (h.request_refused (if_neg hbusy'))
  obtain ⟨b, v, hwork, hrebuilt, henabled, hsequence, hrequest⟩ := restart_answered h hincidents hgeneral
  have hunit : RestartBeside s (taken q s) :=
    (RestartBeside.of_worked (lookedUp_worked q s)).trans (.of_blocks rfl rfl rfl rfl rfl rfl)
  have hall := hunit.trans hwork.toRestartBeside
  obtain ⟨hlist, hoverflow⟩ := rebuildFaults_unit b
  rw [hrebuilt] at hlist hoverflow
  have harbiter : (taken q s).arbiter = s.arbiter := (lookedUp_beside q s).2.1
  have hcrosspoint : (taken q s).crosspoint = s.crosspoint := (lookedUp_beside q s).2.2.1
  have hsequencer : (taken q s).sequencer = s.sequencer := (lookedUp_beside q s).2.2.2.1
  have hengine : b.engine = s.engine.unclear := by rw [hwork.engine, taken_engine]
  have hrecords : NoneRecorded s → NoneRecorded (taken q s) := fun hr =>
    hr.congr (by rw [harbiter]) (by rw [hcrosspoint])
  refine ⟨_, congrArg settled hrequest, fun k _ => hwork.vacant k, hwork.reserved, hwork.edit,
    (congrArg Engine.incidents hengine).trans hincidents, (congrArg Engine.general hengine).trans hgeneral,
    fun z hz => (congrArg (fun e : Engine => e.allClear.get z) hengine).trans (Tab.get_const 0 hz),
    (congrArg Engine.idCounter hengine :), fun hlaw hplan z hz => ?zones,
    hwork.sequencer.trans (congrArg (fun p : Sequencer => Sequencer.start p.reportsAvailable) hsequencer), rfl, rfl, henabled,
    hsequence, ⟨placesClosed s.tables.edit s.router, rfl, fun hopened => ?opened, fun e hedit hphase => ?validating⟩,
    hall.timer, hall.sPort, hall.zPort, hall.fields, hall.coded, hall.codeFlips, hall.marks, hall.marksOnly,
    hwork.arrival.trans (congrArg _ harbiter), hwork.onAir.trans (congrArg _ harbiter),
    hwork.confirm.trans (congrArg _ harbiter), hall.presence, hall.runs, hall.samples, fun z hz => ?base, ?standing⟩
  case zones =>
    obtain ⟨hclaim, hholder, hrecord⟩ := hwork.zones (taken_demand hlaw)
      (hplan.congr (by rw [harbiter]) fun z _ => by rw [taken_engine]) (by rwa [taken_engine]) (by rwa [taken_engine]) z hz
    exact ⟨hclaim, hholder, fun hr => hrecord (hrecords hr)⟩
  case opened =>
    rcases hedit : s.tables.edit with _ | e
    · rfl
    · exact if_neg (by simp [hopened e hedit])
  case validating =>
    have hfilled : placesClosed s.tables.edit s.router =
        fillPlace .commit s.router.address (.response 10 .noEdit []) s.router.places := by
      rw [hedit]
      exact if_pos (EditPhase.isValidating_iff.mpr hphase)
    refine ⟨fun hnone => hfilled.trans (fillPlace_none hnone), fun before x after hplaces hbefore => hfilled.trans ?_⟩
    rw [hplaces, fillPlace_append hbefore]
    rfl
  case base =>
    have hbase := (hwork.base z hz).congr (hunit.sound _) hunit.fields
    exact ⟨hbase.marked, hbase.mask, hbase.trim⟩
  case standing =>
    rw [standingFaults_eq, hall.timer, hall.zPort, hall.presence] at hlist
    rw [standingFaults_eq, hall.zPort, hall.presence] at hoverflow
    exact ⟨hlist, hoverflow⟩

end Sys2Proof.Machine
end

section
/-! SUPPORT. The reads: a request that only reads answers with what it reads, and the fields of a STATUS (R157, R182). -/

namespace Sys2Proof.Machine

variable {s t : State} {q : Sender}

/-! ### What a read request answers (R155) -/

/-- A request that only reads answers with what it reads once the sender's authority has been looked up. -/
theorem reading_answered {type : Nat} (h : Entitled q .monitor s) (hb : s.router.address ≠ 0 ∨ takenUnbound type = true)
    (f : State → Status × List Byte) :
    request q type .monitor [] (reading f) s =
      answered q (.response type (f (taken q s)).1 (f (taken q s)).2) (lookedUp q s) :=
  h.request_answered hb rfl (handLaw_lookedUp h.hand q)

/-- The router with a place reserved for the command in hand. -/
def withOwn (q : Sender) (r : Router) : Router := { r with places := r.places ++ [.reserved .command q] }

/-- What the authority lookup of a command leaves as it was, as far as a read shows it. -/
structure TakenKeeps (q : Sender) (s : State) : Prop where
  places : (taken q s).router.places = s.router.places ++ [.reserved .command q]
  confirms : (taken q s).router.confirms = s.router.confirms
  address : (taken q s).router.address = s.router.address
  destination : (taken q s).router.destination = s.router.destination
  sToZ : (taken q s).router.sToZ = s.router.sToZ
  zToS : (taken q s).router.zToS = s.router.zToS
  timer : (taken q s).timer = s.timer
  sPort : (taken q s).sPort = s.sPort
  zPort : (taken q s).zPort = s.zPort
  fields : (taken q s).tables.fields = s.tables.fields
  edit : (taken q s).tables.edit = s.tables.edit
  engine : (taken q s).engine = s.engine
  arbiter : (taken q s).arbiter = s.arbiter
  crosspoint : (taken q s).crosspoint = s.crosspoint
  sequencer : (taken q s).sequencer = s.sequencer

theorem taken_keeps (q : Sender) (s : State) : TakenKeeps q s :=
  have hworked := lookedUp_worked q s
  have hrouter := (lookedUp_beside q s).1
  have hafter : (taken q s).router = withOwn q s.router := congrArg (withOwn q) hrouter
  { places := (congrArg Router.places hafter :)
    confirms := (congrArg Router.confirms hafter :)
    address := (congrArg Router.address hafter :)
    destination := (congrArg Router.destination hafter :)
    sToZ := (congrArg Router.sToZ hafter :)
    zToS := (congrArg Router.zToS hafter :)
    timer := hworked.timer
    sPort := hworked.sPort
    zPort := hworked.zPort
    fields := hworked.fields
    edit := hworked.edit
    engine := hworked.engine
    arbiter := (lookedUp_beside q s).2.1
    crosspoint := (lookedUp_beside q s).2.2.1
    sequencer := (lookedUp_beside q s).2.2.2.1 }

/-! ### The fields of a STATUS (R157, R182) -/

/-- The answer's own reserved place is no filled one. -/
theorem filled_reserved (l : List Place) :
    ((l ++ [Place.reserved .command q]).filter Place.isFilled).length = (l.filter Place.isFilled).length := by
  simp [Place.isFilled]

/-- The answer's own reserved place counts among the reserved ones. -/
theorem unfilled_reserved (l : List Place) :
    ((l ++ [Place.reserved .command q]).filter fun p => !p.isFilled).length = (l.filter fun p => !p.isFilled).length + 1 := by
  simp [Place.isFilled]

theorem unfilled_eq : (fun p : Place => !p.isFilled) = fun p => match p with | .reserved _ _ => true | _ => false := by
  funext p
  cases p <;> rfl

theorem editFields (e : Option Edit) :
    [byte (editCode e), byte (e.elim 0 Edit.owner), byte (e.elim 0 Edit.lease)] =
      match e with
      | none => [0, 0, 0]
      | some e => [if e.phase = .opened then 1 else 2, byte e.owner, byte e.lease] := by
  rcases e with _ | ⟨owner, lease, staging, phase⟩
  · rfl
  · cases phase <;> rfl

theorem stepFields (r : StepState) :
    [byte (stepStateCode r), byte r.zoneCode] =
      match r with
      | .idle => [0, 255]
      | .deferred z _ => [1, byte z]
      | .pilot z => [2, byte z]
      | .settle z _ => [3, byte z]
      | .sample z _ => [4, byte z] := by
  cases r <;> rfl

theorem generalFlag (g : Option Cause) : byte (flag g.isSome) = if g = none then 0 else 1 := by
  cases g <;> rfl

theorem claimsIn_eq (s : State) (p : ClaimState → Bool) :
    s.claimsIn p = ((List.range 16).filter fun k => (s.arbiter.claims.get k).any fun c => p c.state).length := by
  unfold State.claimsIn slotsWhere indices
  congr 2
  funext k
  cases s.arbiter.claims.get k <;> rfl

end Sys2Proof.Machine
end

section
/-! READS. What STATUS, READ ENTRY, READ LINE and READ STATE answer (R157, R158, R159, R181, R182). -/

namespace Sys2Proof.Machine

variable {s t : State} {q : Sender} {table index image kind form number p : Nat} {i : Incident} {st : Status}

/-! ### The image a read names (R158) -/

theorem tableOfNumber_none (h : 9 ≤ table) : tableOfNumber table = none := by
  obtain ⟨n, rfl⟩ := Nat.exists_eq_add_of_le' h
  rfl

theorem readCheck_badTable (h : 9 ≤ table) : readCheck table index image s = .error .badTable := by
  unfold readCheck
  rw [tableOfNumber_none h]

theorem readCheck_badIndex {n : TableName} (ht : tableOfNumber table = some n) (h : tableEntries n ≤ index) :
    readCheck table index image s = .error .badIndex := by
  unfold readCheck
  rw [ht]
  exact if_pos h

theorem readCheck_error {n : TableName} (ht : tableOfNumber table = some n) (h : index < tableEntries n)
    (him : readImage image s = .error st) : readCheck table index image s = .error st := by
  unfold readCheck
  rw [ht, him]
  exact if_neg (Nat.not_le.mpr h)

theorem readCheck_ok {n : TableName} {im : Image} (ht : tableOfNumber table = some n) (h : index < tableEntries n)
    (him : readImage image s = .ok im) : readCheck table index image s = .ok (n, im) := by
  unfold readCheck
  rw [ht, him]
  exact if_neg (Nat.not_le.mpr h)

theorem readImage_noEdit (h : s.tables.edit = none) : readImage 1 s = .error .noEdit := by
  show (match s.tables.edit with | none => _ | some e => _) = _
  rw [h]

theorem readImage_staging {e : Edit} (h : s.tables.edit = some e) : readImage 1 s = .ok e.staging := by
  show (match s.tables.edit with | none => _ | some e => _) = _
  rw [h]

theorem readImage_badValue (h : 2 ≤ image) : readImage image s = .error .badValue := by
  obtain ⟨n, rfl⟩ := Nat.exists_eq_add_of_le' h
  rfl

theorem readOne_error (h : readCheck table index image s = .error st) : readOne table index image s = (st, []) := by
  unfold readOne
  rw [h]

theorem readFour_error (h : readCheck table index image s = .error st) : readFour table index image s = (st, []) := by
  unfold readFour
  rw [h]

theorem readOne_ok {n : TableName} {im : Image} (h : readCheck table index image s = .ok (n, im)) :
    readOne table index image s =
      (.ok, [byte table] ++ bytes2 index ++ [byte image] ++ [byte (markCode s n image index)] ++
        positionImage n im index) := by
  unfold readOne
  rw [h]

theorem readFour_ok {n : TableName} {im : Image} (h : readCheck table index image s = .ok (n, im)) :
    readFour table index image s =
      (.ok, [byte table] ++ bytes2 index ++ [byte image] ++
        (lineIndices index).map (fun i => byte (markCode s n image i)) ++
        (lineIndices index).flatMap (positionImage n im)) := by
  unfold readFour
  rw [h]

/-- The mark of a position: 2 beyond the end of the table, else 1 where the in-effect entry is marked. -/
theorem markCode_inEffect (s : State) (n : TableName) (i : Nat) :
    markCode s n 0 i =
      if tableEntries n ≤ i then 2 else if s.marked { table := n, index := i } then 1 else 0 := by
  simp [markCode]

theorem markCode_staging (s : State) (n : TableName) (i : Nat) :
    markCode s n 1 i = if tableEntries n ≤ i then 2 else 0 := by
  simp [markCode]

theorem lineIndices_eq (index : Nat) :
    lineIndices index =
      [index, index / 4 * 4 + (index + 1) % 4, index / 4 * 4 + (index + 2) % 4, index / 4 * 4 + (index + 3) % 4] := by
  show [index / 4 * 4 + (index + 0) % 4, _, _, _] = _
  rw [Nat.add_zero, Nat.div_add_mod' index 4]

/-! ### The records of READ STATE (R159, R182) -/

theorem named_badForm (h : 2 ≤ form) : namedIncident form number s = .error .badValue := by
  obtain ⟨n, rfl⟩ := Nat.exists_eq_add_of_le' h
  rfl

theorem named_badId (h : number = 0 ∨ 255 < number) : namedIncident 0 number s = .error .badIndex := if_pos h

theorem named_badPosition (h : 7 < number) : namedIncident 1 number s = .error .badIndex := if_pos h

theorem named_missingId (hlow : 1 ≤ number) (hhigh : number ≤ 255) (h : ∀ i ∈ s.engine.incidents, i.id ≠ number) :
    namedIncident 0 number s = .error .notFound := by
  have hnone : s.engine.incidents.find? (fun i => decide (i.id = number)) = none :=
    List.find?_eq_none.mpr fun i hi => by simpa using h i hi
  refine (if_neg (by omega)).trans ?_
  rw [hnone]

theorem named_missingPosition (hnumber : number ≤ 7) (h : s.engine.incidents.length ≤ number) :
    namedIncident 1 number s = .error .notFound := by
  have hnone : s.incident number = none := List.getElem?_eq_none h
  refine (if_neg (Nat.not_lt.mpr hnumber)).trans ?_
  rw [hnone]

theorem named_position (hnumber : number ≤ 7) (h : s.incident number = some i) : namedIncident 1 number s = .ok i := by
  refine (if_neg (Nat.not_lt.mpr hnumber)).trans ?_
  rw [h]

theorem named_id (hlow : 1 ≤ number) (hhigh : number ≤ 255) (hp : s.incident p = some i) (hid : i.id = number)
    (hfirst : ∀ x < p, ∀ j, s.incident x = some j → j.id ≠ number) : namedIncident 0 number s = .ok i := by
  obtain ⟨hlt, hget⟩ := List.getElem?_eq_some_iff.mp hp
  have hfound : s.engine.incidents.find? (fun i => decide (i.id = number)) = some i := by
    refine List.find?_eq_some_iff_getElem.mpr ⟨by simpa using hid, p, hlt, hget, fun x hx => ?_⟩
    have := hfirst x hx _ (List.getElem?_eq_getElem (Nat.lt_trans hx hlt))
    simpa using this
  refine (if_neg (by omega)).trans ?_
  rw [hfound]

theorem incidentBytes_eq (i : Incident) :
    incidentBytes i =
      [byte i.id, (match i.state with | .confirming _ => 1 | .active => 2 | .held => 3 : Byte), byte i.origin,
          byte i.plan, byte i.dzList.length] ++
        padTo 12 (i.dzList.flatMap fun e => bytes2 e.1 ++ [(match e.2 with | .inAlarm => 0 | .restored => 1 : Byte)]) ++
        [byte i.further] ++ bytes2 (match i.state with | .confirming deadline => deadline | _ => 0) ++
        bytes2 i.elapsed ++ (match i.nextStep with | none => [255, 255] | some k => bytes2 k) ++
        (match i.lastStep with
          | none => [0, 0, 0, 0, 0, 0]
          | some l =>
            [1, byte l.step] ++ (match l.range with | none => [255, 255] | some r => [byte r.1, byte r.2]) ++
              [byte l.clipped, byte l.unplaced]) ++
        [byte (flag i.planFault)] := by
  have hstate : byte (incidentStateCode i.state) =
      match i.state with | .confirming _ => 1 | .active => 2 | .held => 3 := by
    cases i.state <;> rfl
  have hdeadline : i.state.deadline = match i.state with | .confirming deadline => deadline | _ => 0 := by
    cases i.state <;> rfl
  have hconditions : (fun e : Nat × Condition => bytes2 e.1 ++ [byte (conditionCode e.2)]) =
      fun e => bytes2 e.1 ++ [(match e.2 with | .inAlarm => 0 | .restored => 1 : Byte)] := by
    funext ⟨d, c⟩
    cases c <;> rfl
  have hnext : stepBytes i.nextStep = match i.nextStep with | none => [255, 255] | some k => bytes2 k := by
    cases i.nextStep <;> rfl
  have hlast : lastStepBytes i.lastStep =
      match i.lastStep with
      | none => [0, 0, 0, 0, 0, 0]
      | some l =>
        [1, byte l.step] ++ (match l.range with | none => [255, 255] | some r => [byte r.1, byte r.2]) ++
          [byte l.clipped, byte l.unplaced] := by
    rcases i.lastStep with _ | ⟨step, _ | ⟨low, high⟩, clipped, unplaced⟩ <;> rfl
  unfold incidentBytes
  rw [hstate, hdeadline, hconditions, hnext, hlast]

theorem demandBytes_eq (i : Incident) :
    demandBytes i =
      packBits 16 (fun z => decide (i.demand.get z = .alert) || decide (i.demand.get z = .evacuate)) ++
        packBits 16 fun z => decide (i.demand.get z = .evacuate) := by
  have hdemand : ∀ d : Demand, decide (d ≠ .none) = (decide (d = .alert) || decide (d = .evacuate)) := by
    intro d
    cases d <;> rfl
  unfold demandBytes
  exact congrArg (packBits 16 · ++ _) (funext fun z => hdemand _)

theorem claimBytes_some {c : Claim} {code stamp confirm timer : Nat}
    (h : claimStateFields c.state = (code, stamp, confirm, timer)) :
    claimBytes (some c) =
      [1, byte c.station, byte c.channel, byte c.level] ++
        (match c.selection with
          | .span first count => [0, byte first, byte count]
          | .groups set => 1 :: bytes2 set.toNat : List Byte) ++
        [byte code] ++ bytes2 c.arrival ++ bytes2 stamp ++ [byte c.waitCount, byte confirm] ++ bytes2 (timer / 16) ++
        [byte c.zonesHeld] := by
  have hselection : selectionBytes c.selection =
      match c.selection with
      | .span first count => [0, byte first, byte count]
      | .groups set => 1 :: bytes2 set.toNat := by
    cases c.selection <;> rfl
  unfold claimBytes
  dsimp only
  rw [h, hselection]

theorem reportFlags : ∀ valid earth ampFailed : Bool,
    (packByte fun j => if j = 0 then valid else if j = 1 then earth else if j = 2 then ampFailed else false) =
      byte (flag valid + 2 * flag earth + 4 * flag ampFailed) := by
  decide

theorem zoneBytes_eq (s : State) (z : Nat) :
    zoneBytes s z =
      [match s.arbiter.holders.get z with | .slot k => byte k | .plan => 254 | .none => 255] ++
        (match s.arbiter.planClaims.get z with
          | none => [0, 0]
          | some .alert => [4, 0]
          | some .evacuate => [5, 1]
          | some .allClear => [3, 2] : List Byte) ++
        [byte (s.arbiter.masks.get z), byte (s.tables.fields.zones.get z).baseMask,
          if s.arbiter.reserved = some z then 1 else 0, byte (demandCode (s.engine.demand.get z))] ++
        bytes2 (s.engine.allClear.get z) ++
        [byte (s.crosspoint.trims.get z), byte (s.tables.fields.zones.get z).baseTrim] ++
        (match s.zPort.reports.get z with
          | none => [0, 0, 0]
          | some p => [1, byte p.load, byte (flag p.valid + 2 * flag p.earth + 4 * flag p.ampFailed)]) ++
        [byte (resultCode (s.sequencer.zones.get z).last), byte (s.sequencer.zones.get z).failures,
          match (s.sequencer.zones.get z).counted with | none => 255 | some k => byte (failCode k),
          byte (s.sequencer.zones.get z).normals] := by
  have hholder : byte (holderCode (s.arbiter.holders.get z)) =
      match s.arbiter.holders.get z with | .slot k => byte k | .plan => 254 | .none => 255 := by
    cases s.arbiter.holders.get z <;> rfl
  have hplan : [byte ((s.arbiter.planClaims.get z).elim 0 planLevel),
        byte ((s.arbiter.planClaims.get z).elim 0 planKindCode)] =
      match s.arbiter.planClaims.get z with
      | none => [0, 0]
      | some .alert => [4, 0]
      | some .evacuate => [5, 1]
      | some .allClear => [3, 2] := by
    rcases s.arbiter.planClaims.get z with _ | kind
    · rfl
    · cases kind <;> rfl
  have hreserved : byte (flag (decide (s.arbiter.reserved = some z))) = if s.arbiter.reserved = some z then 1 else 0 := by
    by_cases h : s.arbiter.reserved = some z
    · rw [if_pos h, decide_eq_true h]
      rfl
    · rw [if_neg h, decide_eq_false h]
      rfl
  have hreport : byte (flag (s.zPort.reports.get z).isSome) :: (s.zPort.reports.get z).elim [0, 0] reportBytes =
      match s.zPort.reports.get z with
      | none => [0, 0, 0]
      | some p => [1, byte p.load, byte (flag p.valid + 2 * flag p.earth + 4 * flag p.ampFailed)] := by
    rcases s.zPort.reports.get z with _ | r
    · rfl
    · exact congrArg (fun b => [1, byte r.load, b]) (reportFlags r.valid r.earth r.ampFailed)
  have hcounted : byte ((s.sequencer.zones.get z).counted.elim 255 failCode) =
      match (s.sequencer.zones.get z).counted with | none => 255 | some k => byte (failCode k) := by
    cases (s.sequencer.zones.get z).counted <;> rfl
  rw [← hholder, ← hplan, ← hreserved, ← hreport, ← hcounted]
  unfold zoneBytes
  simp only [List.cons_append, List.nil_append, List.append_assoc]

/-! ### The requests -/

theorem readEntry_leaves {data : List Byte} (h : Entitled q .monitor s) (hb : s.router.address ≠ 0)
    (hdata : readOne table index image (taken q s) = (st, data)) :
    Leaves (.readEntry q table index image) s (answered q (.response 3 st data) (lookedUp q s)) := by
  have hrequest := reading_answered (type := 3) h (.inl hb) (readOne table index image)
  rw [hdata] at hrequest
  exact congrArg settled hrequest

theorem readLine_leaves {data : List Byte} (h : Entitled q .monitor s) (hb : s.router.address ≠ 0)
    (hdata : readFour table index image (taken q s) = (st, data)) :
    Leaves (.readLine q table index image) s (answered q (.response 4 st data) (lookedUp q s)) := by
  have hrequest := reading_answered (type := 4) h (.inl hb) (readFour table index image)
  rw [hdata] at hrequest
  exact congrArg settled hrequest

/-- A read the checks refuse is refused both as READ ENTRY and as READ LINE. -/
theorem reads_refused (h : Entitled q .monitor s) (hb : s.router.address ≠ 0)
    (hcheck : readCheck table index image (taken q s) = .error st) :
    Leaves (.readEntry q table index image) s (answered q (.response 3 st []) (lookedUp q s)) ∧
      Leaves (.readLine q table index image) s (answered q (.response 4 st []) (lookedUp q s)) :=
  ⟨readEntry_leaves h hb (readOne_error hcheck), readLine_leaves h hb (readFour_error hcheck)⟩

theorem readState_leaves {record : List Byte} (h : Entitled q .monitor s) (hb : s.router.address ≠ 0)
    (hrecord : stateRecord kind form number (taken q s) = .ok record) :
    Leaves (.readState q kind form number) s
      (answered q (.response 5 .ok ([byte kind, byte form] ++ bytes2 number ++ record)) (lookedUp q s)) := by
  have hread : readState kind form number (taken q s) = (.ok, [byte kind, byte form] ++ bytes2 number ++ record) := by
    unfold readState
    rw [hrecord]
  have hrequest := reading_answered (type := 5) h (.inl hb) (readState kind form number)
  rw [hread] at hrequest
  exact congrArg settled hrequest

theorem readState_refused (h : Entitled q .monitor s) (hb : s.router.address ≠ 0)
    (hrecord : stateRecord kind form number (taken q s) = .error st) :
    Leaves (.readState q kind form number) s (answered q (.response 5 st []) (lookedUp q s)) := by
  have hread : readState kind form number (taken q s) = (st, []) := by
    unfold readState
    rw [hrecord]
  have hrequest := reading_answered (type := 5) h (.inl hb) (readState kind form number)
  rw [hread] at hrequest
  exact congrArg settled hrequest

theorem stateRecord_badKind (h : kind = 0 ∨ 6 < kind) : stateRecord kind form number s = .error .badValue := by
  rcases h with rfl | h
  · rfl
  · obtain ⟨n, rfl⟩ := Nat.exists_eq_add_of_lt h
    rw [show 6 + n + 1 = n + 7 by omega]
    rfl

theorem stateRecord_named (hkind : kind = 1 ∨ kind = 2) (h : namedIncident form number s = .error st) :
    stateRecord kind form number s = .error st := by
  rcases hkind with rfl | rfl <;> exact congrArg (Except.map _) h

end Sys2Proof.Machine
end

section
/-! READS. The statement: what each read answers (R157, R158, R159, R181, R182). -/

namespace Sys2Proof.Machine

variable {s t : State} {q : Sender} {table index image kind form number : Nat}

/-! ### STATUS -/

/-- What STATUS shows of a state, with the fields written out (R157, R182). -/
def statusShown (q : Sender) (s : State) : List Byte :=
  [byte s.router.address, byte (s.router.destination.getD 0), byte s.router.sToZ.length, byte s.router.zToS.length,
      byte (s.router.places.filter Place.isFilled).length, byte s.router.confirms.length,
      byte ((s.router.places.filter fun p => !p.isFilled).length + 1)] ++
    bytes4 s.timer.seconds ++ [byte (sLinkCode s.sPort.link)] ++ bytes2 s.sPort.inboundCount ++
    [byte (zLinkCode s.zPort.link)] ++
    [byte (editCode s.tables.edit), byte (s.tables.edit.elim 0 Edit.owner), byte (s.tables.edit.elim 0 Edit.lease)] ++
    ([byte s.engine.incidents.length, byte (flag s.engine.general.isSome), byte (causeCode s.engine.general)] ++
      [byte (s.claimsIn ClaimState.isPending), byte (s.claimsIn ClaimState.isConfirming),
        byte (s.claimsIn ClaimState.isWaiting), byte (s.claimsIn ClaimState.isOnAir)]) ++
    [byte (stepStateCode s.sequencer.step), byte s.sequencer.step.zoneCode] ++
    [byte s.sequencer.pointer, byte (flag s.sequencer.latch), byte s.sequencer.overdue, byte s.sequencer.scrubPointer,
      byte (lookedUp q s).faultUnit.list.length, byte (flag (lookedUp q s).faultUnit.overflow),
      byte (flag (lookedUp q s).faultUnit.enabled), byte (lookedUp q s).faultUnit.queue.length,
      byte (flag (lookedUp q s).faultUnit.overrun)]

theorem claimsIn_congr (h : t.arbiter = s.arbiter) (p : ClaimState → Bool) : t.claimsIn p = s.claimsIn p := by
  unfold State.claimsIn slotsWhere
  rw [h]

/-- STATUS answers the state once the sender's authority has been looked up, its own place counted as reserved. -/
theorem statusData_taken (q : Sender) (s : State) : statusData (taken q s) = statusShown q s := by
  have hkeeps := taken_keeps q s
  have hfaultUnit : (taken q s).faultUnit = (lookedUp q s).faultUnit := rfl
  unfold statusData statusShown
  rw [hkeeps.address, hkeeps.destination, hkeeps.sToZ, hkeeps.zToS, hkeeps.places, filled_reserved, unfilled_reserved,
    hkeeps.confirms, hkeeps.timer, hkeeps.sPort, hkeeps.zPort, hkeeps.edit, hkeeps.engine, hkeeps.sequencer, hfaultUnit,
    claimsIn_congr hkeeps.arbiter, claimsIn_congr hkeeps.arbiter, claimsIn_congr hkeeps.arbiter,
    claimsIn_congr hkeeps.arbiter]
  simp only [List.cons_append, List.nil_append, List.append_assoc]

theorem statusShown_length (q : Sender) (s : State) : (statusShown q s).length = 36 := rfl

theorem status_leaves (h : Entitled q .monitor s) :
    Leaves (.status q) s (answered q (.response 2 .ok (statusShown q s)) (lookedUp q s)) := by
  have hrequest := reading_answered (type := 2) h (.inr rfl) fun t => (.ok, statusData t)
  rw [statusData_taken] at hrequest
  exact congrArg settled hrequest

/-! ### The records, in the state before the read -/

theorem zoneBytes_taken (q : Sender) (s : State) (z : Nat) : zoneBytes (taken q s) z = zoneBytes s z := by
  have hkeeps := taken_keeps q s
  unfold zoneBytes
  rw [hkeeps.arbiter, hkeeps.fields, hkeeps.engine, hkeeps.crosspoint, hkeeps.zPort, hkeeps.sequencer]

theorem channelBytes_taken (q : Sender) (s : State) (c : Nat) : channelBytes (taken q s) c = channelBytes s c := by
  unfold channelBytes
  rw [(taken_keeps q s).crosspoint]

theorem namedIncident_taken (q : Sender) (s : State) : namedIncident form number (taken q s) = namedIncident form number s := by
  unfold namedIncident State.incident
  rw [taken_engine]

theorem numbered_ok {limit : Nat} (h : number < limit) (record : List Byte) : numbered limit number record = .ok record :=
  if_pos h

theorem numbered_bad {limit : Nat} (h : limit ≤ number) (record : List Byte) :
    numbered limit number record = .error .badIndex :=
  if_neg (Nat.not_lt.mpr h)

/-- An incident record that cannot be named is refused with the reason. -/
theorem readIncident_refused {st : Status} (h : Entitled q .monitor s) (hb : s.router.address ≠ 0)
    (hkind : kind = 1 ∨ kind = 2)
    (hnamed : namedIncident form number s = .error st) :
    Leaves (.readState q kind form number) s (answered q (.response 5 st []) (lookedUp q s)) :=
  readState_refused h hb (stateRecord_named hkind ((namedIncident_taken q s).trans hnamed))

/-- The record of a claim in the slot. -/
theorem readClaim {c : Claim} {code stamp confirm timer : Nat} (h : Entitled q .monitor s) (hb : s.router.address ≠ 0)
    (hnumber : number ≤ 15) (hclaim : s.arbiter.claims.get number = some c)
    (hfields : claimStateFields c.state = (code, stamp, confirm, timer)) :
    Leaves (.readState q 3 form number) s
      (answered q (.response 5 .ok ([byte 3, byte form] ++ bytes2 number ++
        ([1, byte c.station, byte c.channel, byte c.level] ++
          (match c.selection with
            | .span first count => [0, byte first, byte count]
            | .groups set => 1 :: bytes2 set.toNat) ++
          [byte code] ++ bytes2 c.arrival ++ bytes2 stamp ++ [byte c.waitCount, byte confirm] ++ bytes2 (timer / 16) ++
          [byte c.zonesHeld]))) (lookedUp q s)) := by
  refine readState_leaves h hb ?_
  have hrecord : stateRecord 3 form number (taken q s) =
      numbered 16 number (claimBytes ((taken q s).arbiter.claims.get number)) := rfl
  rw [hrecord, numbered_ok (Nat.lt_succ_of_le hnumber), (taken_keeps q s).arbiter, hclaim]
  exact congrArg Except.ok (claimBytes_some hfields)

/-- The images of READ ENTRY and READ LINE, over the mark of each position of the table. -/
theorem reads_image {n : TableName} {held : Image} {mark : Nat → Nat} (h : Entitled q .monitor s) (hb : s.router.address ≠ 0)
    (ht : tableOfNumber table = some n) (hi : index < tableEntries n) (him : readImage image (taken q s) = .ok held)
    (hmark : ∀ i, markCode (taken q s) n image i = if tableEntries n ≤ i then 2 else mark i) :
    Leaves (.readEntry q table index image) s
        (answered q (.response 3 .ok ([byte table] ++ bytes2 index ++ [byte image] ++ [byte (mark index)] ++
          entryImage (held.entry { table := n, index := index }))) (lookedUp q s)) ∧
      Leaves (.readLine q table index image) s
        (answered q (.response 4 .ok ([byte table] ++ bytes2 index ++ [byte image] ++
          (lineIndices index).map (fun i => byte (if tableEntries n ≤ i then 2 else mark i)) ++
          (lineIndices index).flatMap (positionImage n held))) (lookedUp q s)) := by
  have hcheck := readCheck_ok ht hi him
  constructor
  · refine readEntry_leaves h hb ((readOne_ok hcheck).trans ?_)
    unfold positionImage
    rw [hmark, if_neg (Nat.not_le.mpr hi), if_neg (Nat.not_le.mpr hi)]
  · refine readLine_leaves h hb ((readFour_ok hcheck).trans ?_)
    rw [funext hmark]

/-- Settles O27, read by read. -/
theorem readsAnswerTheState : Obligations.ReadsAnswerTheState := by
  intro q s h u places claims status
  have hkeeps := taken_keeps q s
  have hstatus : statusShown q s = status := by
    unfold statusShown
    rw [unfilled_eq, editFields, stepFields, generalFlag, claimsIn_eq, claimsIn_eq, claimsIn_eq, claimsIn_eq]
    rfl
  refine ⟨⟨hstatus ▸ status_leaves h, hstatus ▸ statusShown_length q s⟩, fun hb => ⟨?_, ?_⟩⟩
  · intro table index image one four both head
    refine ⟨fun ht => reads_refused h hb (readCheck_badTable ht), ?_⟩
    intro n ht line oneOf fourOf mark
    refine ⟨fun hi => reads_refused h hb (readCheck_badIndex ht hi), fun hi => ⟨?_, ?_, ?_, ?_⟩⟩
    · rintro rfl
      have hreads := reads_image h hb ht hi (image := 0) (held := s.tables.fields) (mark := mark)
        (congrArg Except.ok hkeeps.fields)
        (fun i => markCode_inEffect (taken q s) n i)
      rw [lineIndices_eq] at hreads
      exact hreads
    · rintro rfl hedit
      exact reads_refused h hb (readCheck_error ht hi (readImage_noEdit (hkeeps.edit.trans hedit)))
    · rintro rfl e hedit
      have hreads := reads_image h hb ht hi (mark := fun _ => 0) (readImage_staging (hkeeps.edit.trans hedit))
        (fun i => markCode_staging (taken q s) n i)
      rw [lineIndices_eq] at hreads
      exact hreads
    · exact fun him => reads_refused h hb (readCheck_error ht hi (readImage_badValue him))
  · intro kind form number read is
    refine ⟨fun hk => readState_refused h hb (stateRecord_badKind hk), fun hk => ⟨?_, ?_, ?_, ?_, ?_, ?_⟩, ?_, ?_, ?_, ?_⟩
    · exact fun hform => readIncident_refused h hb hk (named_badForm hform)
    · rintro rfl hnumber
      exact readIncident_refused h hb hk (named_badId hnumber)
    · rintro rfl hnumber
      exact readIncident_refused h hb hk (named_badPosition hnumber)
    · rintro rfl hlow hhigh hmissing
      exact readIncident_refused h hb hk (named_missingId hlow hhigh hmissing)
    · rintro rfl hnumber hlength
      exact readIncident_refused h hb hk (named_missingPosition hnumber hlength)
    · intro p i hp hname next last
      have hnamed : namedIncident form number (taken q s) = .ok i := by
        rw [namedIncident_taken]
        rcases hname with ⟨rfl, rfl, hnumber⟩ | ⟨rfl, hid, hlow, hhigh, hfirst⟩
        · exact named_position hnumber hp
        · exact named_id hlow hhigh hp hid hfirst
      constructor
      · rintro rfl
        have hleaves := readState_leaves (kind := 1) h hb (congrArg (Except.map incidentBytes) hnamed)
        rw [incidentBytes_eq] at hleaves
        exact hleaves
      · rintro rfl
        have hleaves := readState_leaves (kind := 2) h hb (congrArg (Except.map demandBytes) hnamed)
        rw [demandBytes_eq] at hleaves
        exact hleaves
    · rintro rfl
      refine ⟨fun hn => readState_refused h hb (numbered_bad hn _), fun hn hempty => ?_, ?_⟩
      · refine readState_leaves (kind := 3) h hb ((numbered_ok (Nat.lt_succ_of_le hn) _).trans ?_)
        rw [hkeeps.arbiter, hempty]
        rfl
      · intro c hn hclaim held
        have hheld {code stamp confirm timer : Nat} (hfields : claimStateFields c.state = (code, stamp, confirm, timer)) :
            held code stamp confirm (timer / 16) := readClaim h hb hn hclaim hfields
        exact ⟨fun hc => hheld (timer := 0) (congrArg claimStateFields hc),
          fun n timer hc => hheld (congrArg claimStateFields hc), fun timer hc => hheld (congrArg claimStateFields hc),
          fun stamp hc => hheld (timer := 0) (congrArg claimStateFields hc)⟩
    · rintro rfl
      refine ⟨fun hn => readState_refused h hb (numbered_bad hn _), fun hn => ?_⟩
      have hleaves := readState_leaves (kind := 4) (form := form) h hb (numbered_ok (Nat.lt_succ_of_le hn) _)
      rw [zoneBytes_taken, zoneBytes_eq] at hleaves
      exact hleaves
    · rintro rfl
      refine ⟨fun hn => readState_refused h hb (numbered_bad hn _), fun hn => ?_⟩
      have hleaves := readState_leaves (kind := 5) (form := form) h hb (numbered_ok (Nat.lt_succ_of_le hn) _)
      rw [channelBytes_taken] at hleaves
      exact hleaves
    · rintro rfl
      exact ⟨fun hn => readState_refused h hb (numbered_bad hn _), fun hn =>
        readState_leaves (kind := 6) h hb (numbered_ok (Nat.lt_succ_of_le hn) _)⟩

end Sys2Proof.Machine
end

section
/-! ENCODINGS. Entry images read back, cells and frames carry what they were made from, and a cell's type and subtype say which
command it holds (R179, R180, R181, file 10). -/

namespace Sys2Proof.Machine

variable {c l : List Byte} {n m i low high : Nat}

/-! ### Numbers as bytes -/

theorem byte_toNat (h : n < 256) : (byte n).toNat = n := Nat.mod_eq_of_lt h

theorem bytes2_toNat (h : n < 65536) : (byte (n / 256)).toNat * 256 + (byte n).toNat = n := by
  show n / 256 % 256 * 256 + n % 256 = n
  omega

theorem signedByte_ofSigned {x : Int} (hlow : -128 ≤ x) (hhigh : x ≤ 127) : signedByte (ofSigned x).toNat = x := by
  unfold signedByte ofSigned
  rw [BitVec.toNat_ofInt]
  split <;> omega

theorem byteAt_lt (l : List Byte) (i : Nat) : byteAt l i < 256 := (l.getD i 0).isLt

/-! ### The fields of an entry (R181) -/

theorem ranged_eq_some : ranged low high n = some m ↔ n = m ∧ low ≤ m ∧ m ≤ high := by
  unfold ranged
  split <;> grind

theorem ranged_self (hlow : low ≤ n) (hhigh : n ≤ high) : ranged low high n = some n :=
  ranged_eq_some.mpr ⟨rfl, hlow, hhigh⟩

theorem byte_field (h : low ≤ n ∧ n ≤ high) (hhigh : high < 256 := by decide) :
    (byte n).toNat = n ∧ low ≤ n ∧ n ≤ high :=
  ⟨byte_toNat (Nat.lt_of_le_of_lt h.2 hhigh), h⟩

theorem bytes2_field (h : low ≤ n ∧ n ≤ high) (hhigh : high < 65536 := by decide) :
    (byte (n / 256)).toNat * 256 + (byte n).toNat = n ∧ low ≤ n ∧ n ≤ high :=
  ⟨bytes2_toNat (Nat.lt_of_le_of_lt h.2 hhigh), h⟩

theorem readFlag_flag (b : Bool) : readFlag (byte (flag b)).toNat = some b := by cases b <;> rfl

theorem readStep_range {k : Option Nat} (h : readStep n = some k) : ∀ x, k = some x → x ≤ 255 := by
  rintro x rfl
  unfold readStep at h
  split at h
  · exact nomatch h
  · split at h
    · obtain rfl := Option.some.inj (Option.some.inj h)
      assumption
    · exact nomatch h

theorem readStep_bytes {k : Option Nat} (h : ∀ x, k = some x → x ≤ 255) :
    ∃ a b, stepBytes k = [a, b] ∧ readStep (a.toNat * 256 + b.toNat) = some k := by
  rcases k with _ | x
  · exact ⟨0xFF, 0xFF, rfl, if_pos (by decide)⟩
  · have hx := h x rfl
    refine ⟨_, _, rfl, ?_⟩
    rw [bytes2_toNat (by omega)]
    unfold readStep
    rw [if_neg (by omega), if_pos hx]

theorem readAuthority_code (a : Authority) : readAuthority (byte (authorityCode a)).toNat = some a := by cases a <;> rfl

/-! ### The round trip of each table (R181) -/

theorem readHeader_image {b : List Byte} {h : Header} (hread : readHeader b = some h) :
    readHeader (entryImage (.header h)) = some h := by
  simp only [readHeader, Option.bind_eq_bind, Option.bind_eq_some_iff, ranged_eq_some, Option.pure_def,
    Option.some.injEq] at hread
  obtain ⟨_, ⟨-, hs⟩, _, ⟨-, hw⟩, _, ⟨-, ha⟩, _, ⟨-, ht⟩, _, ⟨-, he⟩, _, ⟨-, hd⟩, _, ⟨-, hc⟩, _, ⟨-, hr⟩,
    rfl⟩ := hread
  simp only [readHeader, Option.bind_eq_bind, Option.bind_eq_some_iff, ranged_eq_some, Option.pure_def, Option.some.injEq]
  exact ⟨_, byte_field hs, _, bytes2_field hw, _, bytes2_field ha,
    _, byte_field ht, _, byte_field he, _, byte_field hd,
    _, bytes2_field hc, _, bytes2_field hr, rfl⟩

theorem readStorey_image {b : List Byte} {e : Storey} (hread : readStorey b = some e) :
    readStorey (entryImage (.storey e)) = some e := by
  simp only [readStorey, Option.bind_eq_bind, Option.bind_eq_some_iff, ranged_eq_some, Option.pure_def,
    Option.some.injEq] at hread ⊢
  obtain ⟨_, ⟨-, hf⟩, _, ⟨-, hc⟩, rfl⟩ := hread
  exact ⟨_, byte_field hf, _, byte_field hc, rfl⟩

theorem readZoneRecord_image {b : List Byte} {e : ZoneRecord} (hread : readZoneRecord b = some e) :
    readZoneRecord (entryImage (.zoneRecord e)) = some e := by
  simp only [readZoneRecord, Option.bind_eq_bind, Option.bind_eq_some_iff, ranged_eq_some, Option.pure_def,
    Option.some.injEq] at hread ⊢
  obtain ⟨_, ⟨-, hg⟩, _, ⟨-, ht⟩, _, ⟨-, hm⟩, supervised, -, rfl⟩ := hread
  refine ⟨_, byte_field hg, _, byte_field ht, _, byte_field hm, _,
    readFlag_flag supervised, ?_⟩
  exact congrArg_two (ZoneRecord.mk _ _ _ _) (byte_toNat (byteAt_lt b 4)) (byte_toNat (byteAt_lt b 5))

theorem readDetection_image {b : List Byte} {e : DetectionEntry} (hread : readDetection b = some e) :
    readDetection (entryImage (.detection e)) = some e := by
  simp only [readDetection, Option.bind_eq_bind, Option.bind_eq_some_iff, ranged_eq_some, Option.pure_def,
    Option.some.injEq] at hread ⊢
  obtain ⟨mapped, -, _, ⟨-, hs⟩, _, ⟨-, hp⟩, confirm, -, alert, -, rfl⟩ := hread
  exact ⟨_, readFlag_flag mapped, _, byte_field hs, _, byte_field hp, _, readFlag_flag confirm,
    _, readFlag_flag alert, rfl⟩

theorem readStep_image {k : Option Nat} (h : readStep n = some k) : readStep (wordAt (entryImage (.plan k)) 0) = some k := by
  obtain ⟨a, b, hbytes, hread⟩ := readStep_bytes (readStep_range h)
  have himage : entryImage (.plan k) = padTo 12 [a, b] := congrArg (padTo 12) hbytes
  rw [himage]
  exact hread

theorem readStepRecord_fields {b : List Byte} {e : StepRecord} (hread : readStepRecord b = some e) :
    ∃ all delay offset length evacuate carry next, (0 ≤ delay ∧ delay ≤ 3600) ∧ (-95 ≤ offset ∧ offset ≤ 95) ∧
      (1 ≤ length ∧ length ≤ 96) ∧ readStep (wordAt b 7) = some next ∧
      e = ⟨if all = true then .all else .relative, delay, offset, length, if evacuate = true then .evacuate else .alert,
        carry, next⟩ := by
  simp only [readStepRecord, Option.bind_eq_bind, Option.bind_eq_some_iff, ranged_eq_some, Option.pure_def] at hread
  obtain ⟨all, -, delay, ⟨-, hd⟩, hread⟩ := hread
  split at hread
  case isTrue hrange =>
    simp only [Option.bind_eq_some_iff, ranged_eq_some, Option.some.injEq] at hread
    obtain ⟨_, rfl, length, ⟨-, hl⟩, evacuate, -, carry, -, next, hnext, rfl⟩ := hread
    exact ⟨all, delay, _, length, evacuate, carry, next, hd, hrange, hl, hnext, rfl⟩
  case isFalse => exact nomatch hread

theorem readStepRecord_image {b : List Byte} {e : StepRecord} (hread : readStepRecord b = some e) :
    readStepRecord (entryImage (.step e)) = some e := by
  obtain ⟨all, delay, offset, length, evacuate, carry, next, hd, hrange, hl, hnext, rfl⟩ := readStepRecord_fields hread
  obtain ⟨x, y, hbytes, hstep⟩ := readStep_bytes (readStep_range hnext)
  have himage : entryImage (.step
        ⟨if all then .all else .relative, delay, offset, length, if evacuate then .evacuate else .alert, carry, next⟩) =
      padTo 12 [byte (flag all), byte (delay / 256), byte delay, ofSigned offset, byte length, byte (flag evacuate),
        byte (flag carry), x, y] := by
    unfold entryImage entryFields
    dsimp only
    rw [hbytes]
    cases all <;> cases evacuate <;> rfl
  rw [himage]
  generalize hcontents : padTo 12 _ = contents
  have hscope : readFlag (byteAt contents 0) = some all := hcontents ▸ readFlag_flag all
  have hdelay : ranged 0 3600 (wordAt contents 1) = some delay := hcontents ▸ ranged_eq_some.mpr (bytes2_field hd)
  have hoffset : signedByte (byteAt contents 3) = offset := hcontents ▸ signedByte_ofSigned (by omega) (by omega)
  have hlength : ranged 1 96 (byteAt contents 4) = some length := hcontents ▸ ranged_eq_some.mpr (byte_field hl)
  have hkind : readFlag (byteAt contents 5) = some evacuate := hcontents ▸ readFlag_flag evacuate
  have hcarry : readFlag (byteAt contents 6) = some carry := hcontents ▸ readFlag_flag carry
  have hlink : readStep (wordAt contents 7) = some next := hcontents ▸ hstep
  simp only [readStepRecord, hscope, hdelay, hoffset, if_pos hrange, hlength, hkind, hcarry, hlink, Option.bind_eq_bind,
    Option.bind_some, Option.pure_def]

theorem readTranslation_image {b : List Byte} {e : Option Nat} (hread : readTranslation b = some e) :
    readTranslation (entryImage (.translation e)) = some e := by
  rcases e with _ | c
  · exact if_pos rfl
  · have hc : c ≤ 31 := by
      unfold readTranslation at hread
      split at hread
      · exact nomatch hread
      · obtain ⟨_, hranged, hsome⟩ := Option.map_eq_some_iff.mp hread
        obtain rfl := Option.some.inj hsome
        exact (ranged_eq_some.mp hranged).2.2
    have hbyte : byteAt (entryImage (.translation (some c))) 0 = c := byte_toNat (Nat.lt_of_le_of_lt hc (by decide))
    unfold readTranslation
    rw [hbyte, if_neg (by omega), ranged_self (Nat.zero_le c) hc]
    rfl

theorem readAuthorityRow_image {b : List Byte} {e : Option AuthorityRow} (hread : readAuthorityRow b = some e) :
    readAuthorityRow (entryImage (.authority e)) = some e := by
  rcases e with _ | ⟨station, authority⟩
  · rfl
  · simp only [readAuthorityRow, Option.bind_eq_bind, Option.bind_eq_some_iff] at hread
    obtain ⟨held, -, hread⟩ := hread
    have hstation : 1 ≤ station ∧ station ≤ 254 := by
      split at hread
      · simp only [Option.bind_eq_some_iff, ranged_eq_some, Option.pure_def, Option.some.injEq,
          AuthorityRow.mk.injEq] at hread
        obtain ⟨_, ⟨-, hrange⟩, _, -, rfl, -⟩ := hread
        exact hrange
      · exact nomatch hread
    have hfields : readAuthorityRow (entryImage (.authority (some ⟨station, authority⟩))) =
        (ranged 1 254 (byte station).toNat).bind fun n =>
          (readAuthority (byte (authorityCode authority)).toNat).bind fun a => some (some ⟨n, a⟩) := rfl
    rw [hfields, byte_toNat (by omega), ranged_self hstation.1 hstation.2, readAuthority_code]
    rfl

/-- What a table's image holds is read back from the image sent of it. -/
theorem readEntry_image {t : TableName} {b : List Byte} {e : Entry} (h : readEntry t b = some e) :
    readEntry t (entryImage e) = some e := by
  cases t <;> obtain ⟨x, hx, rfl⟩ := Option.map_eq_some_iff.mp h
  · exact congrArg (Option.map Entry.header) (readHeader_image hx)
  · exact congrArg (Option.map Entry.storey) (readStorey_image hx)
  · exact congrArg (Option.map Entry.zoneRecord) (readZoneRecord_image hx)
  · exact congrArg (Option.map Entry.detection) (readDetection_image hx)
  · exact congrArg (Option.map Entry.plan) (readStep_image hx)
  · exact congrArg (Option.map Entry.step) (readStepRecord_image hx)
  · exact congrArg (Option.map Entry.translation) (readTranslation_image hx)
  · obtain ⟨rfl, -, hhigh⟩ := ranged_eq_some.mp hx
    have hbyte : byteAt (entryImage (.defaultChannel (byteAt b 0))) 0 = byteAt b 0 := byte_toNat (byteAt_lt b 0)
    exact congrArg (Option.map Entry.defaultChannel) ((congrArg (ranged 0 31) hbyte).trans hx)
  · exact congrArg (Option.map Entry.authority) (readAuthorityRow_image hx)

/-! ### Cells and frames (R179, R180) -/

theorem bytes2_length (n : Nat) : (bytes2 n).length = 2 := rfl

/-- The four segments of a cell carry it whole. -/
theorem segmentsOf_bytes (h : c.length = 64) : (segmentsOf c).flatMap Segment.bytes = c := by
  have hlast : (c.drop 48).take 16 = c.drop 48 := List.take_of_length_le (Nat.le_of_eq (by rw [List.length_drop, h]))
  have hthird : (c.drop 32).take 16 ++ c.drop 48 = c.drop 32 := by
    have := List.take_append_drop 16 (c.drop 32)
    rwa [List.drop_drop] at this
  have hsecond : (c.drop 16).take 16 ++ c.drop 32 = c.drop 16 := by
    have := List.take_append_drop 16 (c.drop 16)
    rwa [List.drop_drop] at this
  show c.take 16 ++ ((c.drop 16).take 16 ++ ((c.drop 32).take 16 ++ ((c.drop 48).take 16 ++ []))) = c
  rw [List.append_nil, hlast, hthird, hsecond, List.take_append_drop]

/-! ### The command of a cell (file 10, section 10.2) -/

theorem readCell_detect (h : byteAt c 2 = 1) : readCell c = some (readDetect c) := by
  unfold readCell
  dsimp only
  rw [h]
  rfl

theorem readCell_claim (h : byteAt c 2 = 2) :
    readCell c = some (.claim { station := byteAt c 1, tag := byteAt c 3 } (byteAt c 4) (byteAt c 5) (readSelection c)) := by
  unfold readCell
  dsimp only
  rw [h]
  rfl

theorem readCell_request (h : byteAt c 2 = 5) : readCell c = some (readRequest c) := by
  unfold readCell
  dsimp only
  rw [h]
  rfl

theorem readDetect_known (h : wordAt c 4 ≤ 511) :
    readDetect c =
      match byteAt c 6 with
      | 1 => .fire (wordAt c 4)
      | 2 => .restore (wordAt c 4)
      | 3 => .dfault (wordAt c 4)
      | 4 => .dfaultClear (wordAt c 4)
      | event => .detectDiscard (wordAt c 4) event :=
  if_neg (Nat.not_lt.mpr h)

theorem readDetect_discard (h : 511 < wordAt c 4 ∨ byteAt c 6 = 0 ∨ 4 < byteAt c 6) :
    readDetect c = .detectDiscard (wordAt c 4) (byteAt c 6) := by
  by_cases hdz : 511 < wordAt c 4
  · exact if_pos hdz
  · rw [readDetect_known (Nat.not_lt.mp hdz)]
    rcases h.resolve_left hdz with h | h
    · rw [h]
      rfl
    · obtain ⟨n, hn⟩ := Nat.exists_eq_add_of_le' h
      rw [hn]
      rfl

theorem readSelection_unknown (h : 1 < byteAt c 6) : readSelection c = .unknown (byteAt c 6) := by
  obtain ⟨n, hn⟩ := Nat.exists_eq_add_of_le' h
  unfold readSelection
  rw [hn]
  rfl

theorem readCell_noAnswer (h : byteAt c 2 = 4) (hcode : byteAt c 5 = 0 ∨ 4 < byteAt c 5) : readCell c = none := by
  unfold readCell
  dsimp only
  rw [h]
  rcases hcode with hcode | hcode
  · rw [hcode]
    rfl
  · obtain ⟨n, hn⟩ := Nat.exists_eq_add_of_le' hcode
    rw [hn]
    rfl

theorem readCell_noType (h : byteAt c 2 = 0 ∨ 5 < byteAt c 2) : readCell c = none := by
  unfold readCell
  dsimp only
  rcases h with h | h
  · rw [h]
    rfl
  · obtain ⟨n, hn⟩ := Nat.exists_eq_add_of_le' h
    rw [hn]
    rfl

theorem readRequest_unknown (h : byteAt c 4 = 0 ∨ 23 < byteAt c 4) :
    readRequest c = .unknownRequest { station := byteAt c 1, tag := byteAt c 3 } (byteAt c 4) := by
  unfold readRequest
  dsimp only
  rcases h with h | h
  · rw [h]
    rfl
  · obtain ⟨n, hn⟩ := Nat.exists_eq_add_of_le' h
    rw [hn]
    rfl

/-- Settles O16, encoding by encoding. -/
theorem encodingsAgree : Obligations.EncodingsAgree := by
  refine ⟨fun t b e h => ⟨padTo_length 12 _, readEntry_image h⟩, ?_, fun covered => frameGood_withCrc rfl, ?_⟩
  · intro destination source type tag payload hd hs ht hg c
    have hlength : c.length = 64 := makeCell_length ..
    exact ⟨hlength, cellGood_makeCell .., byte_toNat (by omega), byte_toNat (by omega), byte_toNat (by omega),
      byte_toNat (by omega), segmentsOf_bytes hlength⟩
  · intro c q reads dz
    refine ⟨fun hdz => ⟨?_, ?_, ?_, ?_⟩,
      fun h hbad => (readCell_detect h).trans (congrArg some (readDetect_discard hbad)), ?_, ?_,
      fun h hform => (readCell_claim h).trans (by rw [readSelection_unknown hform]), ?_, ?_, ?_, ?_, ?_,
      readCell_noAnswer, readCell_noType, ?_⟩
    iterate 4
      intro h hsub
      refine (readCell_detect h).trans (congrArg some ((readDetect_known hdz).trans ?_))
      rw [hsub]
      rfl
    iterate 2
      intro h hsub
      refine (readCell_claim h).trans ?_
      unfold readSelection
      rw [hsub]
      rfl
    · intro h
      unfold readCell
      dsimp only
      rw [h]
      rfl
    iterate 4
      intro h hsub
      unfold readCell
      dsimp only
      rw [h, hsub]
      rfl
    refine ⟨?_, ?_, ?_, ?_, ?_, ?_, ?_, ?_, ?_, ?_, ?_, ?_, ?_, ?_, ?_, ?_, ?_, ?_, ?_, ?_, ?_, ?_, ?_,
      fun h hbad => (readCell_request h).trans (congrArg some (readRequest_unknown hbad))⟩
    all_goals
      intro h hsub
      refine (readCell_request h).trans (congrArg some ?_)
      unfold readRequest
      dsimp only
      rw [hsub]
      rfl

end Sys2Proof.Machine
end

section
/-! SUPPORT. Where the bytes of a frame stand: words and packed bits within concatenated lists (file 10, R179). -/

namespace Sys2Proof.Machine

variable {l : List Byte} {i j n : Nat}

theorem byteAt_append_left {l' : List Byte} (h : i < l.length) : byteAt (l ++ l') i = byteAt l i := by
  unfold byteAt
  rw [List.getD_eq_getElem?_getD, List.getD_eq_getElem?_getD, List.getElem?_append_left h]

theorem byteAt_append_right {l' : List Byte} (h : l.length ≤ i) : byteAt (l ++ l') i = byteAt l' (i - l.length) := by
  unfold byteAt
  rw [List.getD_eq_getElem?_getD, List.getD_eq_getElem?_getD, List.getElem?_append_right h]

theorem wordAt_append_left {l' : List Byte} (h : i + 1 < l.length) : wordAt (l ++ l') i = wordAt l i := by
  unfold wordAt
  rw [byteAt_append_left (Nat.lt_of_succ_lt h), byteAt_append_left h]

theorem wordAt_append_right {l' : List Byte} (h : l.length ≤ i) : wordAt (l ++ l') i = wordAt l' (i - l.length) := by
  unfold wordAt
  rw [byteAt_append_right h, byteAt_append_right (Nat.le_succ_of_le h), Nat.succ_sub h]

theorem bitAt_append_left {l' : List Byte} (h : n + i / 8 < l.length) : bitAt (l ++ l') n i = bitAt l n i := by
  unfold bitAt
  rw [byteAt_append_left h]

theorem bitAt_append_right {l' : List Byte} (h : l.length ≤ n) : bitAt (l ++ l') n i = bitAt l' (n - l.length) i := by
  unfold bitAt
  rw [byteAt_append_right (Nat.le_add_right_of_le h), Nat.sub_add_comm h]

/-! ### Lists of two-byte numbers -/

theorem words_length {α : Type} (f : α → Nat) (xs : List α) : (xs.flatMap fun x => bytes2 (f x)).length = 2 * xs.length := by
  induction xs with
  | nil => rfl
  | cons x xs ih =>
    rw [List.flatMap_cons, List.length_append, ih, bytes2_length, List.length_cons]
    omega

/-- Word `i` of numbers that lie two bytes each. -/
theorem wordAt_words {α : Type} {f : α → Nat} (hf : ∀ x, f x < 65536) (xs : List α) {x : α} (hx : xs[i]? = some x) :
    wordAt (xs.flatMap fun x => bytes2 (f x)) (2 * i) = f x := by
  induction xs generalizing i with
  | nil => exact nomatch hx
  | cons y ys ih =>
    rw [List.flatMap_cons]
    cases i with
    | zero =>
      obtain rfl := Option.some.inj hx
      exact bytes2_toNat (hf y)
    | succ i =>
      rw [wordAt_append_right (by rw [bytes2_length]; omega), bytes2_length]
      exact ih hx

/-! ### Packed bits -/

theorem packedBits : ∀ b0 b1 b2 b3 b4 b5 b6 b7 : Bool,
    (List.range 8).map (byte (0 + bitValue b0 0 + bitValue b1 1 + bitValue b2 2 + bitValue b3 3 + bitValue b4 4 +
      bitValue b5 5 + bitValue b6 6 + bitValue b7 7)).toNat.testBit = [b0, b1, b2, b3, b4, b5, b6, b7] := by
  decide

theorem packByte_testBit (f : Nat → Bool) (hj : j < 8) : (packByte f).toNat.testBit j = f j := by
  have hbits : (List.range 8).map (packByte f).toNat.testBit = (List.range 8).map f :=
    packedBits (f 0) (f 1) (f 2) (f 3) (f 4) (f 5) (f 6) (f 7)
  have hat := congrArg (·[j]?) hbits
  simpa [hj] using hat

theorem packBits_length (n : Nat) (f : Nat → Bool) : (packBits n f).length = n := by simp [packBits]

theorem bitAt_packBits {f : Nat → Bool} (hi : i < 8 * n) : bitAt (packBits n f) 0 i = f i := by
  have hbyte : byteAt (packBits n f) (i / 8) = (packByte fun j => f (8 * (i / 8) + j)).toNat := by
    unfold byteAt packBits
    rw [List.getD_eq_getElem?_getD, List.getElem?_map, List.getElem?_range (by omega)]
    rfl
  unfold bitAt
  rw [Nat.zero_add, hbyte, packByte_testBit _ (Nat.mod_lt i (by decide)), Nat.div_add_mod]

/-! ### Frames sent (R179) -/

theorem frameOf_drop (covered : List Byte) : (frameOf covered).drop 2 = withCrc covered := rfl

theorem frameOf_length (covered : List Byte) : (frameOf covered).length = covered.length + 4 := by
  unfold frameOf withCrc
  rw [List.length_append, List.length_append, bytes2_length]
  exact Nat.add_comm 2 _

/-- Byte `i` of the covered bytes stands after the two bytes of the start word. -/
theorem byteAt_frameOf {covered : List Byte} (h : i < covered.length) : byteAt (frameOf covered) (i + 2) = byteAt covered i :=
  (byteAt_append_right (Nat.le_add_left 2 i)).trans (byteAt_append_left h)

theorem wordAt_frameOf {covered : List Byte} (h : i + 1 < covered.length) :
    wordAt (frameOf covered) (i + 2) = wordAt covered i :=
  (wordAt_append_right (Nat.le_add_left 2 i)).trans (wordAt_append_left h)

theorem bitAt_frameOf {covered : List Byte} (h : n + i / 8 < covered.length) :
    bitAt (frameOf covered) (n + 2) i = bitAt covered n i :=
  (bitAt_append_right (Nat.le_add_left 2 n)).trans (bitAt_append_left h)

theorem drop_frameOf {covered : List Byte} (h : n ≤ covered.length) (hi : n + i ≤ covered.length) :
    ((frameOf covered).drop (n + 2)).take i = (covered.drop n).take i := by
  have hdrop : (frameOf covered).drop (n + 2) = (withCrc covered).drop n := by
    rw [Nat.add_comm, ← List.drop_drop, frameOf_drop]
  rw [hdrop]
  unfold withCrc
  rw [List.drop_append_of_le_length h, List.take_append_of_le_length (by rw [List.length_drop]; omega)]

end Sys2Proof.Machine
end

section
/-! SUPPORT. The zone slots of a Z-frame where no damage waits to be found: what each slot holds, and the TABLE_CORRUPT that a
marked entry gives (R6, R118, R119, R121, R123). -/

namespace Sys2Proof.Machine

variable {s t : State} {u v w : FaultUnit} {r : EntryRef} {f g : FaultId} {z n : Nat}

/-! ### The Fault List may only grow -/

/-- The fault is listed, or the list has overflowed. -/
def FaultUnit.knows (u : FaultUnit) (f : FaultId) : Prop := u.listed f = true ∨ u.overflow = true

/-- Every fault that `u` knows of is known to `v`. -/
def FaultUnit.Grown (u v : FaultUnit) : Prop := ∀ f, u.knows f → v.knows f

theorem FaultUnit.Grown.refl (u : FaultUnit) : u.Grown u := fun _ h => h

theorem FaultUnit.Grown.trans (h : u.Grown v) (g : v.Grown w) : u.Grown w := fun f hf => g f (h f hf)

theorem add_knows (f : FaultId) (seconds : Nat) (u : FaultUnit) : (u.add f seconds).knows f := by
  by_cases hroom : u.list.length < 64
  · exact .inl (FaultUnit.listed_add hroom)
  · by_cases hlisted : u.listed f = true
    · exact .inl (FaultUnit.listed_add_of_listed hlisted)
    · refine .inr ?_
      unfold FaultUnit.add
      rw [if_neg hlisted, if_neg hroom]

theorem add_overflow (h : u.overflow = true) (f : FaultId) (seconds : Nat) : (u.add f seconds).overflow = true := by
  unfold FaultUnit.add
  split
  · exact h
  · split
    · rw [(FaultUnit.take_list _ _).2]
      exact h
    · rfl

theorem add_grown (f : FaultId) (seconds : Nat) (u : FaultUnit) : u.Grown (u.add f seconds) := fun _ hg =>
  hg.elim (fun h => .inl (FaultUnit.listed_add_of_listed h)) fun h => .inr (add_overflow h f seconds)

/-! ### Reading entries whose damage has been found (R6) -/

/-- The state with another fault unit. -/
def withUnit (u : FaultUnit) (s : State) : State := { s with faultUnit := u }

/-- What a reading did: it left the state alone but for faults asked for, and none of those with sound tables. -/
structure OnlyFaults (s t : State) : Prop where
  state : t = withUnit t.faultUnit s
  grown : s.faultUnit.Grown t.faultUnit
  sound : SoundTables s → t.faultUnit = s.faultUnit

namespace OnlyFaults

theorem refl (s : State) : OnlyFaults s s := ⟨rfl, .refl _, fun _ => rfl⟩

theorem tables (h : OnlyFaults s t) : t.tables = s.tables := (congrArg State.tables h.state :)

theorem found (h : OnlyFaults s t) (hd : DamageFound s) : DamageFound t := by
  rw [h.state]
  exact hd

theorem soundTables (h : OnlyFaults s t) (hs : SoundTables s) : SoundTables t := by
  rw [h.state]
  exact hs

theorem trans {x : State} (h : OnlyFaults s t) (g : OnlyFaults t x) : OnlyFaults s x where
  state := by
    rw [g.state, h.state]
    rfl
  grown := h.grown.trans g.grown
  sound hs := (g.sound (h.soundTables hs)).trans (h.sound hs)

end OnlyFaults

/-- With its damage found, an entry is handed over exactly when it is not marked. -/
theorem useEntry_found (hd : DamageFound s) (r : EntryRef) :
    useEntry r s = if s.marked r = true then (addFault (.tableCorrupt r) s, false) else (s, true) := by
  unfold useEntry
  split
  · rfl
  · rename_i hm
    rw [if_pos (hd r (Bool.eq_false_iff.mpr hm))]

theorem addFault_onlyFaults (h : s.marked r = true) : OnlyFaults s (addFault (.tableCorrupt r) s) where
  state := rfl
  grown := add_grown _ _ _
  sound hs := absurd (hs r).1 (by rw [h]; exact Bool.noConfusion)

theorem useZone_found (hd : DamageFound s) (z : Nat) :
    useZone z s =
      if s.marked (zoneRef z) = true then (addFault (.tableCorrupt (zoneRef z)) s, false) else (s, true) := by
  split
  case isTrue hm => exact useZone_of_marked hm
  case isFalse hm => exact useZone_sound ⟨Bool.eq_false_iff.mpr hm, hd _ (Bool.eq_false_iff.mpr hm)⟩

/-! ### The sample of a slot (R119) -/

/-- The sample of a plan zone: the tone where its record or its translation entry is marked. -/
def planSample (kind : PlanKind) (z : Nat) (s : State) : Sample :=
  let index := translationIndex (s.tables.fields.zones.get z).group kind
  if s.marked (zoneRef z) = true ∨ s.marked (translationRef index) = true then tone kind s.timer
  else translated s kind (s.tables.fields.translations.get index)

/-- The sample of a zone's slot before trim. -/
def slotValue (z : Nat) (s : State) : Sample :=
  match s.crosspoint.records.get z with
  | .none => 0
  | .slot _ c => s.crosspoint.samples.get c
  | .plan kind => planSample kind z s

/-- What a zone's slot holds. -/
def slotOf (s : State) (z : Nat) : ZoneSlot where
  sample := attenuate (s.crosspoint.trims.get z) (slotValue z s)
  mute := decide (s.crosspoint.records.get z = .none)
  pilot := decide (s.arbiter.reserved = some z)

theorem slotOf_withUnit (u : FaultUnit) (s : State) : slotOf (withUnit u s) = slotOf s := rfl

/-- A plan zone whose record is marked has its TABLE_CORRUPT known. -/
def PlanKnown (s : State) (u : FaultUnit) (z : Nat) : Prop :=
  ∀ kind, s.crosspoint.records.get z = .plan kind → s.marked (zoneRef z) = true → u.knows (.tableCorrupt (zoneRef z))

theorem planSample_marked {kind : PlanKind}
    (h : s.marked (zoneRef z) = true ∨
      s.marked (translationRef (translationIndex (s.tables.fields.zones.get z).group kind)) = true) :
    planSample kind z s = tone kind s.timer :=
  if_pos h

theorem planSample_unmarked {kind : PlanKind} (hzone : ¬s.marked (zoneRef z) = true)
    (htranslation : ¬s.marked (translationRef (translationIndex (s.tables.fields.zones.get z).group kind)) = true) :
    planSample kind z s =
      translated s kind (s.tables.fields.translations.get (translationIndex (s.tables.fields.zones.get z).group kind)) :=
  if_neg fun h => h.elim hzone htranslation

/-- The sample read for a zone, with what its reading did. -/
theorem zoneSample_found (hd : DamageFound s) (z : Nat) :
    ∃ t, zoneSample z s = (t, slotValue z s) ∧ OnlyFaults s t ∧ PlanKnown s t.faultUnit z := by
  unfold zoneSample slotValue
  cases hrecord : s.crosspoint.records.get z with
  | none => exact ⟨s, rfl, .refl s, fun kind h => nomatch hrecord.symm.trans h⟩
  | slot k c => exact ⟨s, rfl, .refl s, fun kind h => nomatch hrecord.symm.trans h⟩
  | plan kind =>
    dsimp only
    by_cases hzone : s.marked (zoneRef z) = true
    · rw [useZone_of_marked hzone, planSample_marked (.inl hzone)]
      exact ⟨_, rfl, addFault_onlyFaults hzone, fun _ _ _ => add_knows _ _ _⟩
    · rw [useZone_found hd, if_neg hzone]
      unfold groupSample
      dsimp only
      rw [useEntry_found hd]
      by_cases htranslation : s.marked (translationRef (translationIndex (s.tables.fields.zones.get z).group kind)) = true
      · rw [if_pos htranslation, planSample_marked (.inr htranslation)]
        exact ⟨_, rfl, addFault_onlyFaults htranslation, fun _ _ h => absurd h hzone⟩
      · rw [if_neg htranslation, planSample_unmarked hzone htranslation]
        exact ⟨s, rfl, .refl s, fun _ _ h => absurd h hzone⟩

theorem buildSlot_found (hd : DamageFound s) (z : Nat) :
    ∃ t, buildSlot z s = (t, slotOf s z) ∧ OnlyFaults s t ∧ PlanKnown s t.faultUnit z := by
  obtain ⟨t, hsample, honly, hknown⟩ := zoneSample_found hd z
  refine ⟨t, ?_, honly, hknown⟩
  have hcrosspoint : t.crosspoint = s.crosspoint := (congrArg State.crosspoint honly.state :)
  unfold buildSlot slotOf
  rw [hsample]
  dsimp only
  rw [hcrosspoint]

/-- The slots of `n` zones from `z` on. -/
theorem buildSlots_found (hd : DamageFound s) (n z : Nat) :
    ∃ t, buildSlots n z s = (t, (List.range' z n).map (slotOf s)) ∧ OnlyFaults s t ∧
      ∀ y, z ≤ y → y < z + n → PlanKnown s t.faultUnit y := by
  induction n generalizing z s with
  | zero => exact ⟨s, rfl, .refl s, fun y hlow hhigh => absurd hhigh (Nat.not_lt.mpr hlow)⟩
  | succ n ih =>
    obtain ⟨t, hslot, honly, hknown⟩ := buildSlot_found hd z
    obtain ⟨x, hslots, hmore, hrest⟩ := ih (honly.found hd) (z + 1)
    have hsame : slotOf t = slotOf s := (congrArg slotOf honly.state).trans (slotOf_withUnit _ s)
    have hplan : ∀ y, PlanKnown t x.faultUnit y → PlanKnown s x.faultUnit y := by
      rw [honly.state]
      exact fun _ h => h
    refine ⟨x, ?_, honly.trans hmore, fun y hlow hhigh => ?_⟩
    · unfold buildSlots
      rw [hslot]
      dsimp only
      rw [hslots, hsame]
      rfl
    · rcases Nat.eq_or_lt_of_le hlow with rfl | hlow
      · exact fun kind hkind hmarked => hmore.grown _ (hknown kind hkind hmarked)
      · exact hplan y (hrest y hlow (by omega))

end Sys2Proof.Machine
end

section
/-! Z-FRAMES. What a Z-frame carries: gains, tones, slots and the cell lane (R112, R118 to R123, R150, R179). -/

namespace Sys2Proof.Machine

variable {s t : State} {z n : Nat} {g : Segment} {c : List Byte} {rest : List Segment}

/-! ### Gains and tones (R120, R121) -/

theorem trimGain_le : ∀ t < 32, trimGain t ≤ 65536 := by decide

theorem trimGain_nearest : ∀ t < 32,
    (2 * trimGain t - 1) ^ 20 * 10 ^ t < 131072 ^ 20 ∧ 131072 ^ 20 < (2 * trimGain t + 1) ^ 20 * 10 ^ t := by
  decide

/-- A gain of at most 1 leaves a number between 0 and itself. -/
theorem scaled_within {v g : Int} (hv : 0 ≤ v) (hg : 0 ≤ g) (hgain : g ≤ 65536) :
    0 ≤ Int.tdiv (v * g) 65536 ∧ Int.tdiv (v * g) 65536 ≤ v := by
  have hproduct : 0 ≤ v * g := Int.mul_nonneg hv hg
  have hbound : v * g ≤ v * 65536 := Int.mul_le_mul_of_nonneg_left hgain hv
  rw [Int.tdiv_eq_ediv_of_nonneg hproduct]
  omega

theorem attenuate_toInt (t : Nat) (v : Sample) (ht : t < 32) :
    (attenuate t v).toInt = Int.tdiv (v.toInt * trimGain t) 65536 := by
  have hgain : (trimGain t : Int) ≤ 65536 := Int.ofNat_le.mpr (trimGain_le t ht)
  have hlow : -32768 ≤ v.toInt := BitVec.le_toInt v
  have hhigh : v.toInt < 32768 := BitVec.toInt_lt
  unfold attenuate
  refine BitVec.toInt_ofInt_eq_self (by decide) ?_ ?_
  all_goals
    rcases Int.le_total 0 v.toInt with hv | hv
    · have hscaled := scaled_within hv (Int.natCast_nonneg (trimGain t)) hgain
      omega
    · have hscaled := scaled_within (Int.neg_nonneg.mpr hv) (Int.natCast_nonneg (trimGain t)) hgain
      rw [Int.neg_mul, Int.neg_tdiv] at hscaled
      omega

theorem withinPeak_bounds (v : Sample) : -8192 ≤ (withinPeak v).toInt ∧ (withinPeak v).toInt ≤ 8192 := by
  have hself : (withinPeak v).toInt = max (-8192) (min 8192 v.toInt) := by
    unfold withinPeak
    refine BitVec.toInt_ofInt_eq_self (by decide) ?_ ?_ <;> omega
  omega

theorem tone_silent {f : FrameTimer} (h : f.seconds % 2 = 1) : tone .alert f = 0 := if_pos h

theorem tone_bounds (kind : PlanKind) (f : FrameTimer) : -8192 ≤ (tone kind f).toInt ∧ (tone kind f).toInt ≤ 8192 := by
  cases kind with
  | alert =>
    by_cases hodd : f.seconds % 2 = 1
    · rw [tone_silent hodd]
      decide
    · have hsounds : tone .alert f = withinPeak (Config.toneShape (planKindCode .alert) f.frameCount) := if_neg hodd
      rw [hsounds]
      exact withinPeak_bounds _
  | evacuate => exact withinPeak_bounds _
  | allClear => exact withinPeak_bounds _

/-! ### The cell lane (R150) -/

/-- The Cell Router once the oldest cell has started where none was being sent. -/
def laneStarted (r : Router) : Router :=
  if r.zSending = [] then
    match r.sToZ with
    | c :: rest => { r with sToZ := rest, zSending := segmentsOf c }
    | [] => r
  else r

theorem startZCell_eq (s : State) : startZCell s = { s with router := laneStarted s.router } := by
  unfold startZCell laneStarted
  split
  · cases s.router.sToZ <;> rfl
  · rfl

/-- The segment that a Z-frame carries. -/
def laneSegment (r : Router) : Segment := (nextSegment (laneStarted r).zSending).1

/-- The Cell Router once the frame has taken its segment. -/
def laneMoved (r : Router) : Router := { laneStarted r with zSending := (nextSegment (laneStarted r).zSending).2 }

theorem lane_cell {r : Router} {rest : List (List Byte)} (hlane : r.zSending = []) (hcell : r.sToZ = c :: rest) :
    laneSegment r = { marker := true, bytes := c.take 16 } ∧
      laneMoved r = { r with sToZ := rest, zSending := (segmentsOf c).tail } := by
  have hstarted : laneStarted r = { r with sToZ := rest, zSending := segmentsOf c } := by
    unfold laneStarted
    rw [if_pos hlane, hcell]
  unfold laneSegment laneMoved
  rw [hstarted]
  exact ⟨rfl, rfl⟩

theorem lane_idle {r : Router} (hlane : r.zSending = []) (hcell : r.sToZ = []) :
    laneSegment r = idleSegment ∧ laneMoved r = r := by
  have hstarted : laneStarted r = r := by
    unfold laneStarted
    rw [if_pos hlane, hcell]
  unfold laneSegment laneMoved
  rw [hstarted, hlane]
  exact ⟨rfl, congrArg (fun l => { r with zSending := l }) hlane.symm⟩

theorem lane_underWay {r : Router} (hlane : r.zSending = g :: rest) :
    laneSegment r = g ∧ laneMoved r = { r with zSending := rest } := by
  have hstarted : laneStarted r = r := if_neg (by rw [hlane]; exact List.cons_ne_nil g rest)
  unfold laneSegment laneMoved
  rw [hstarted, hlane]
  exact ⟨rfl, rfl⟩

theorem laneSegment_length {r : Router} (h : RouterLaw r) : (laneSegment r).bytes.length = 16 := by
  rcases hlane : r.zSending with _ | ⟨g, rest⟩
  · rcases hcell : r.sToZ with _ | ⟨c, cells⟩
    · rw [(lane_idle hlane hcell).1]
      rfl
    · have hlength : c.length = 64 :=
        h.cells c (List.mem_append_left _ (by rw [hcell]; exact List.mem_cons_self))
      rw [(lane_cell hlane hcell).1, List.length_take, hlength]
      rfl
  · rw [(lane_underWay hlane).1]
    exact h.segments g (List.mem_append_right _ (by rw [hlane]; exact List.mem_cons_self))

/-! ### The covered bytes of a Z-frame (R118) -/

/-- The slots of all zones. -/
def allSlots (s : State) : List ZoneSlot := (List.range' 0 128).map (slotOf s)

/-- The bytes a Z-frame's check covers. -/
def zCovered (s : State) : List Byte :=
  [byte (frameNumber s.timer)] ++ slotBytes (allSlots s) ++ segmentBytes (laneSegment s.router)

theorem allSlots_length (s : State) : (allSlots s).length = 128 := by simp [allSlots]

theorem allSlots_get (s : State) (hz : z < 128) : (allSlots s)[z]? = some (slotOf s z) := by
  unfold allSlots
  rw [List.getElem?_map, List.getElem?_range' hz]
  simp

theorem slotWords_length (s : State) : ((allSlots s).flatMap fun x => bytes2 x.sample.toNat).length = 256 := by
  rw [words_length (fun x : ZoneSlot => x.sample.toNat), allSlots_length]

theorem slotBytes_length (s : State) : (slotBytes (allSlots s)).length = 288 := by
  unfold slotBytes
  rw [List.length_append, List.length_append, slotWords_length, packBits_length, packBits_length]

theorem slotBytes_word (s : State) (hz : z < 128) :
    wordAt (slotBytes (allSlots s)) (2 * z) = (slotOf s z).sample.toNat := by
  unfold slotBytes
  rw [List.append_assoc, wordAt_append_left (by rw [slotWords_length]; omega)]
  exact wordAt_words (f := fun x : ZoneSlot => x.sample.toNat) (fun x => x.sample.isLt) _ (allSlots_get s hz)

theorem slotBytes_mute (s : State) (hz : z < 128) : bitAt (slotBytes (allSlots s)) 256 z = (slotOf s z).mute := by
  unfold slotBytes
  rw [bitAt_append_left (by rw [List.length_append, slotWords_length, packBits_length]; omega),
    bitAt_append_right (Nat.le_of_eq (by rw [slotWords_length])), slotWords_length, bitAt_packBits (by omega), allSlots_get s hz]
  rfl

theorem slotBytes_pilot (s : State) (hz : z < 128) : bitAt (slotBytes (allSlots s)) 272 z = (slotOf s z).pilot := by
  unfold slotBytes
  rw [bitAt_append_right (Nat.le_of_eq (by rw [List.length_append, slotWords_length, packBits_length])), List.length_append,
    slotWords_length, packBits_length, bitAt_packBits (by omega), allSlots_get s hz]
  rfl

theorem zCovered_length (h : RouterLaw s.router) : (zCovered s).length = 306 := by
  unfold zCovered segmentBytes
  rw [List.length_append, List.length_append, slotBytes_length, List.length_cons, List.length_cons,
    laneSegment_length h]
  rfl

theorem zCovered_number (s : State) : byteAt (zCovered s) 0 = (s.timer.seconds * 16000 + s.timer.frameCount) % 256 :=
  byte_toNat (Nat.mod_lt _ (by decide))

/-- A place within the slots, seen from the covered bytes. -/
theorem zCovered_slots (s : State) :
    (∀ i < 287, wordAt (zCovered s) (i + 1) = wordAt (slotBytes (allSlots s)) i) ∧
      ∀ n i, n + i / 8 < 288 → bitAt (zCovered s) (n + 1) i = bitAt (slotBytes (allSlots s)) n i := by
  have hhead : ([byte (frameNumber s.timer)] ++ slotBytes (allSlots s)).length = 289 := by
    rw [List.length_append, slotBytes_length]
    rfl
  unfold zCovered
  constructor
  · intro i hi
    rw [wordAt_append_left (by omega), wordAt_append_right (Nat.le_add_left 1 i)]
    rfl
  · intro n i hi
    rw [bitAt_append_left (by omega), bitAt_append_right (Nat.le_add_left 1 n)]
    rfl

theorem zCovered_lane (s : State) : (zCovered s).drop 289 = segmentBytes (laneSegment s.router) := by
  have hhead : ([byte (frameNumber s.timer)] ++ slotBytes (allSlots s)).length = 289 := by
    rw [List.length_append, slotBytes_length]
    rfl
  unfold zCovered
  rw [← hhead, List.drop_left]

/-! ### The frame built -/

theorem zFrameBuild_found (hd : DamageFound s) (hedit : ∀ e, s.tables.edit = some e → e.phase ≠ .passed) :
    ∃ u, zFrameBuild s =
        { s with
          zPort := { s.zPort with sent := some (frameOf (zCovered s)) }
          router := laneMoved s.router
          faultUnit := u } ∧
      (SoundTables s → u = s.faultUnit) ∧ ∀ z < 128, PlanKnown s u z := by
  obtain ⟨t, hslots, honly, hknown⟩ := buildSlots_found (s := { s with router := laneStarted s.router }) hd 128 0
  refine ⟨t.faultUnit, ?_, honly.sound, fun z hz => hknown z (Nat.zero_le z) (by omega)⟩
  unfold zFrameBuild
  rw [installIfPassed_other hedit, startZCell_eq, hslots]
  dsimp only
  rw [honly.state]
  rfl

/-- Settles O22: the gains and the tones by their bounds, the frame byte by byte. -/
theorem zFrameSlots : Obligations.ZFrameSlots := by
  refine ⟨trimGain_nearest, attenuate_toInt, fun kind f => ⟨(tone_bounds kind f).1, (tone_bounds kind f).2, ?_⟩, ?_⟩
  · rintro rfl hodd
    exact tone_silent hodd
  · intro s hd hedit hrouter
    obtain ⟨u, hbuilt, hsound, hknown⟩ := zFrameBuild_found hd hedit
    have hlength := zCovered_length hrouter
    obtain ⟨hwords, hbits⟩ := zCovered_slots s
    have hcontrol : byteAt (frameOf (zCovered s)) 291 = flag (laneSegment s.router).marker := by
      rw [byteAt_frameOf (i := 289) (by omega)]
      have hat : byteAt (zCovered s) 289 = byteAt ((zCovered s).drop 289) 0 := by simp [byteAt]
      have hflag : ∀ marker : Bool, (byte (flag marker)).toNat = flag marker := by decide
      rw [hat, zCovered_lane]
      exact hflag _
    have hsegment : ((frameOf (zCovered s)).drop 292).take 16 = (laneSegment s.router).bytes := by
      rw [drop_frameOf (n := 290) (by omega) (by omega), ← List.drop_drop (i := 1) (j := 289), zCovered_lane]
      exact List.take_of_length_le (Nat.le_of_eq (laneSegment_length hrouter))
    refine ⟨_, frameOf (zCovered s), congrArg settled hbuilt, rfl, ?_, ?_, ?_, fun z hz => ⟨?_, ?_, fun v hv => ?_⟩,
      fun hlane c rest hcell => ?_, fun hlane hcell => ?_, fun g rest hlane => ?_, rfl, hsound, fun z hz => hknown z hz⟩
    · rw [frameOf_length, hlength]
    · exact frameGood_withCrc hlength
    · exact (byteAt_frameOf (i := 0) (by omega)).trans (zCovered_number s)
    · rw [bitAt_frameOf (n := 257) (by omega), hbits 256 z (by omega), slotBytes_mute s hz]
      rfl
    · rw [bitAt_frameOf (n := 273) (by omega), hbits 272 z (by omega), slotBytes_pilot s hz]
      rfl
    · have hvalue : v = slotValue z s := by
        unfold slotValue
        cases hrecord : s.crosspoint.records.get z <;> rw [hrecord] at hv <;> exact hv
      rw [show 3 + 2 * z = 2 * z + 1 + 2 by omega, wordAt_frameOf (by omega), hwords _ (by omega), slotBytes_word s hz, hvalue]
      rfl
    · obtain ⟨hsent, hmoved⟩ := lane_cell hlane hcell
      rw [hsent] at hcontrol hsegment
      exact ⟨hmoved, hcontrol, hsegment⟩
    · obtain ⟨hsent, hmoved⟩ := lane_idle hlane hcell
      rw [hsent] at hcontrol hsegment
      exact ⟨hmoved, hcontrol, hsegment⟩
    · obtain ⟨hsent, hmoved⟩ := lane_underWay hlane
      rw [hsent] at hcontrol hsegment
      exact ⟨hmoved, hcontrol, hsegment⟩

end Sys2Proof.Machine
end

section
/-! SUPPORT. What a frame event leaves as it was: the ports, channel presence, the sample stores, the stored tables and the values
of the header (R106). -/

namespace Sys2Proof.Machine

variable {s t u : State} {p n : Nat}

/-! ### The Incident Engine and the edit beside the link and the channels -/

/-- What the work of the Incident Engine, of the edit and of the queues leaves as it was: the timer, the ports and the
Crosspoint. -/
structure Apart (s t : State) : Prop where
  timer : t.timer = s.timer
  sPort : t.sPort = s.sPort
  zPort : t.zPort = s.zPort
  crosspoint : t.crosspoint = s.crosspoint

namespace Apart

theorem refl (s : State) : Apart s s := ⟨rfl, rfl, rfl, rfl⟩

theorem trans (h : Apart s t) (g : Apart t u) : Apart s u :=
  ⟨g.timer.trans h.timer, g.sPort.trans h.sPort, g.zPort.trans h.zPort, g.crosspoint.trans h.crosspoint⟩

theorem foldl {α : Type} {f : State → α → State} (h : ∀ t a, Apart t (f t a)) (l : List α) (s : State) :
    Apart s (l.foldl f s) := by
  induction l generalizing s with
  | nil => exact .refl s
  | cons a l ih => exact (h s a).trans (ih _)

theorem notify (n : Notice) (s : State) : Apart s (notify n s) := ⟨rfl, rfl, rfl, rfl⟩

theorem onEngine (f : Engine → Engine) (s : State) : Apart s (s.onEngine f) := ⟨rfl, rfl, rfl, rfl⟩

theorem onRouter (f : Router → Router) (s : State) : Apart s (s.onRouter f) := ⟨rfl, rfl, rfl, rfl⟩

theorem onFaultUnit (f : FaultUnit → FaultUnit) (s : State) : Apart s (s.onFaultUnit f) := ⟨rfl, rfl, rfl, rfl⟩

theorem setEdit (e : Option Edit) (s : State) : Apart s (s.setEdit e) := ⟨rfl, rfl, rfl, rfl⟩

theorem onIncident (p : Nat) (f : Incident → Incident) (s : State) : Apart s (onIncident p f s) := .onEngine _ s

theorem giveAnswer (w : Waiting) (body : AnswerBody) (s : State) : Apart s (giveAnswer w body s) := .onRouter _ s

theorem useEntry (r : EntryRef) (s : State) : Apart s (useEntry r s).1 := by
  unfold Machine.useEntry
  split
  · exact ⟨rfl, rfl, rfl, rfl⟩
  · split <;> exact ⟨rfl, rfl, rfl, rfl⟩

theorem answerEnded (e : Edit) (s : State) : Apart s (answerEnded e s) := by
  unfold Machine.answerEnded
  split
  · exact .giveAnswer _ _ s
  · exact .refl s

theorem breakEdit (s : State) : Apart s (breakEdit s) := by
  unfold Machine.breakEdit
  split
  · exact .refl s
  · exact ((Apart.setEdit none s).trans (.notify _ _)).trans (.answerEnded _ _)

theorem askGeneral (cause : GeneralCause) (s : State) : Apart s (askGeneral cause s) := by
  unfold Machine.askGeneral
  split
  · exact .refl s
  · exact (((Apart.onEngine _ s).trans (.notify _ _)).trans (.breakEdit _)).trans (.onEngine _ _)

theorem planFault (p : Nat) (s : State) : Apart s (planFault p s) := (Apart.askGeneral _ s).trans (.onIncident _ _ _)

theorem readStoreyCount (s : State) : Apart s (readStoreyCount s).1 := by
  have hused := Apart.useEntry headerRef s
  unfold Machine.readStoreyCount
  split <;> next huse => rwa [huse] at hused

theorem readSpan (k : Nat) (s : State) : Apart s (readSpan k s).1 := by
  have hused := Apart.useEntry (storeyRef k) s
  unfold Machine.readSpan
  split <;> next huse => rwa [huse] at hused

theorem readStoreys (ks : List Nat) (s : State) : Apart s (readStoreys ks s).1 := by
  induction ks generalizing s with
  | nil => exact .refl s
  | cons k ks ih =>
    have hspan := Apart.readSpan k s
    unfold Machine.readStoreys
    rcases hread : Machine.readSpan k s with ⟨t, _ | zs⟩ <;> rw [hread] at hspan
    · exact hspan
    · exact hspan.trans (ih t)

theorem raiseZones (p : Nat) (d : Demand) (zs : List Nat) (s : State) : Apart s (raiseZones p d zs s) :=
  (Apart.onEngine _ s).trans (.onEngine _ _)

theorem applyStep (p k : Nat) (s : State) : Apart s (applyStep p k s).1 := by
  have hused := Apart.useEntry (stepRef k) s
  unfold Machine.applyStep
  rcases s.incident p with _ | i
  · exact .refl s
  · dsimp only
    rcases huse : Machine.useEntry (stepRef k) s with ⟨t, _ | _⟩ <;> rw [huse] at hused
    · exact hused.trans (.planFault p t)
    · have hcounted := Apart.readStoreyCount t
      dsimp only
      rcases hcount : Machine.readStoreyCount t with ⟨u, _ | count⟩ <;> rw [hcount] at hcounted
      · exact (hused.trans hcounted).trans (.planFault p u)
      · dsimp only
        generalize (stepRange count i.origin (s.tables.fields.steps.get k)).storeys = storeys
        have hstoreys := (hused.trans hcounted).trans (Apart.readStoreys storeys u)
        rcases hread : Machine.readStoreys storeys u with ⟨v, zs, _ | _⟩ <;> rw [hread] at hstoreys
        · exact (hstoreys.trans (.raiseZones p _ zs v)).trans (.planFault p _)
        · exact (hstoreys.trans (.raiseZones p _ zs v)).trans (.onIncident _ _ _)

theorem dueCheck (p fuel : Nat) (s : State) : Apart s (dueCheck p fuel s) := by
  induction fuel generalizing s with
  | zero => exact .refl s
  | succ fuel ih =>
    unfold Machine.dueCheck
    rcases s.incident p with _ | i
    · exact .refl s
    · dsimp only
      rcases i.nextStep with _ | k
      · exact .refl s
      · have hused := Apart.useEntry (stepRef k) s
        dsimp only
        rcases huse : Machine.useEntry (stepRef k) s with ⟨t, _ | _⟩ <;> rw [huse] at hused
        · exact hused.trans (.planFault p t)
        · dsimp only
          split
          · exact hused
          · exact (hused.trans (.applyStep p k t)).trans (ih _)

theorem expireIncident (p : Nat) (s : State) : Apart s (expireIncident p s) := by
  unfold Machine.expireIncident
  split
  · exact .refl s
  · exact ((Apart.onEngine _ s).trans (.notify _ _)).trans (.onEngine _ _)

theorem tickIncidents (n p : Nat) (s : State) : Apart s (tickIncidents n p s) := by
  induction n generalizing p s with
  | zero => exact .refl s
  | succ n ih =>
    unfold Machine.tickIncidents
    rcases s.incident p with _ | i
    · exact .refl s
    · dsimp only
      rcases i.state with d | _ | _
      · dsimp only
        split
        · exact (Apart.expireIncident p s).trans (ih p _)
        · exact (Apart.onEngine _ s).trans (ih (p + 1) _)
      · exact ((Apart.onEngine _ s).trans (.dueCheck p dueFuel _)).trans (ih (p + 1) _)
      · exact ih (p + 1) s

end Apart

/-! ### What a frame event keeps -/

/-- The timer, the ports, channel presence with the sample stores, the stored tables and the header's values. -/
structure FrameKept (s t : State) : Prop where
  timer : t.timer = s.timer
  sPort : t.sPort = s.sPort
  zPort : t.zPort = s.zPort
  presence : t.crosspoint.presence = s.crosspoint.presence
  samples : t.crosspoint.samples = s.crosspoint.samples
  fields : t.tables.fields = s.tables.fields
  header : ∀ f, headerValue f t = headerValue f s

namespace FrameKept

theorem refl (s : State) : FrameKept s s := ⟨rfl, rfl, rfl, rfl, rfl, rfl, fun _ => rfl⟩

theorem trans (h : FrameKept s t) (g : FrameKept t u) : FrameKept s u :=
  ⟨g.timer.trans h.timer, g.sPort.trans h.sPort, g.zPort.trans h.zPort, g.presence.trans h.presence,
    g.samples.trans h.samples, g.fields.trans h.fields, fun f => (g.header f).trans (h.header f)⟩

theorem of_beside (h : Beside s t) : FrameKept s t :=
  ⟨h.timer, h.sPort, h.zPort, h.presence, h.samples, h.fields, h.headerValue⟩

theorem validationFrame (s : State) : FrameKept s (validationFrame s) := by
  unfold Machine.validationFrame
  split
  · exact .refl s
  · split
    · split
      · unfold endValidation
        split <;> exact ⟨rfl, rfl, rfl, rfl, rfl, rfl, fun _ => rfl⟩
      · exact ⟨rfl, rfl, rfl, rfl, rfl, rfl, fun _ => rfl⟩
    · exact .refl s

theorem leaseTick (s : State) : FrameKept s (leaseTick s) := by
  unfold Machine.leaseTick
  split
  · exact .refl s
  · split <;> exact ⟨rfl, rfl, rfl, rfl, rfl, rfl, fun _ => rfl⟩

end FrameKept

theorem headerValue_of_sound (hfields : t.tables.fields = s.tables.fields) (hsound : Sound t headerRef ↔ Sound s headerRef)
    (f : Header → Nat) : headerValue f t = headerValue f s := by
  unfold headerValue
  rw [hfields]
  exact ite_congr_iff hsound rfl rfl

theorem engineTicked_kept (s : State) : FrameKept s (engineTicked s) := by
  have hframe := (tickIncidents_work (s := lowerAllClear s) (done := []) (rest := s.engine.incidents) rfl).frame
  have happart : Apart s (engineTicked s) := (Apart.onEngine _ s).trans (.tickIncidents _ _ _)
  exact ⟨happart.timer, happart.sPort, happart.zPort, congrArg Crosspoint.presence happart.crosspoint,
    congrArg Crosspoint.samples happart.crosspoint, hframe.fields,
    headerValue_of_sound hframe.fields (hframe.sound headerRef)⟩

theorem FrameKept.engineTick (s : State) : FrameKept s (engineTick s) :=
  (engineTicked_kept s).trans (.of_beside (engineEvent_beside engineTicked s))

theorem FrameKept.incidentTick (s : State) : FrameKept s (incidentTick s) := (FrameKept.engineTick s).trans (.leaseTick _)

/-! ### The supervision divider (R106) -/

theorem dividerTick_of_running (h : s.timer.divider ≠ 0) : dividerTick s = s := if_neg h

theorem dividerTick_of_zero (h : s.timer.divider = 0) :
    dividerTick s = supervisionTick (drain drainFuel (reloadDivider s)) :=
  if_pos h

/-- The timer with the supervision divider reloaded. -/
def FrameTimer.reload (interval : Nat) (f : FrameTimer) : FrameTimer := { f with divider := 1600 * interval }

theorem reloadDivider_eq (s : State) :
    reloadDivider s = (headerUsed s).onTimer (FrameTimer.reload (headerValue Header.tickInterval s)) := by
  unfold reloadDivider
  rw [readTiming_value]
  dsimp only
  rw [Nat.mul_comm]
  rfl

theorem FrameKept.onTimer (h : FrameKept s t) (f : FrameTimer → FrameTimer) : FrameKept (s.onTimer f) (t.onTimer f) :=
  ⟨congrArg f h.timer, h.sPort, h.zPort, h.presence, h.samples, h.fields, h.header⟩

theorem dividerTick_zero_kept (h : s.timer.divider = 0) :
    FrameKept (s.onTimer (FrameTimer.reload (headerValue Header.tickInterval s))) (dividerTick s) := by
  rw [dividerTick_of_zero h, reloadDivider_eq]
  have hused : FrameKept s (headerUsed s) := .of_beside (useEntry_worked headerRef s).toBeside
  exact (hused.onTimer _).trans
    (.of_beside ((drain_worked drainFuel _).trans (supervisionTick_worked _)).toBeside)

/-! ### The frame event -/

/-- The frame event before the supervision divider is looked at. -/
def frameTicked (s : State) : State :=
  let t := validationFrame (claimTimers (s.onTimer FrameTimer.count))
  if s.timer.wraps then incidentTick t else t

theorem frameEvent_eq (s : State) : frameEvent s = dividerTick (frameTicked s) := rfl

theorem frameTicked_kept (s : State) : FrameKept (s.onTimer FrameTimer.count) (frameTicked s) := by
  have hcounted : FrameKept (s.onTimer FrameTimer.count) (validationFrame (claimTimers (s.onTimer FrameTimer.count))) :=
    (FrameKept.of_beside (claimTimers_worked _).toBeside).trans (.validationFrame _)
  unfold frameTicked
  dsimp only
  split
  · exact hcounted.trans (.incidentTick _)
  · exact hcounted

/-- The timer after a frame event. -/
def FrameTimer.afterFrame (interval : Nat) (f : FrameTimer) : FrameTimer :=
  if f.divider ≤ 1 then f.count.reload interval else f.count

theorem frameEvent_kept (s : State) :
    FrameKept (s.onTimer (FrameTimer.afterFrame (headerValue Header.tickInterval s))) (frameEvent s) := by
  have hticked := frameTicked_kept s
  have hdivider : (frameTicked s).timer.divider = s.timer.divider - 1 := congrArg FrameTimer.divider hticked.timer
  rw [frameEvent_eq]
  by_cases hdue : s.timer.divider ≤ 1
  · have hkept := (hticked.onTimer (FrameTimer.reload (headerValue Header.tickInterval s))).trans
      (u := dividerTick (frameTicked s))
    have hvalue : headerValue Header.tickInterval (frameTicked s) = headerValue Header.tickInterval s := hticked.header _
    rw [← hvalue] at hkept
    have hafter : s.timer.afterFrame (headerValue Header.tickInterval s) =
        s.timer.count.reload (headerValue Header.tickInterval (frameTicked s)) := by
      rw [hvalue]
      exact if_pos hdue
    have hstart : s.onTimer (FrameTimer.afterFrame (headerValue Header.tickInterval s)) =
        (s.onTimer FrameTimer.count).onTimer (FrameTimer.reload (headerValue Header.tickInterval (frameTicked s))) :=
      congrArg (fun f => { s with timer := f }) hafter
    rw [hstart]
    exact hkept (dividerTick_zero_kept (by omega))
  · have hafter : s.timer.afterFrame (headerValue Header.tickInterval s) = s.timer.count := if_neg hdue
    have hstart : s.onTimer (FrameTimer.afterFrame (headerValue Header.tickInterval s)) = s.onTimer FrameTimer.count :=
      congrArg (fun f => { s with timer := f }) hafter
    rw [hstart, dividerTick_of_running (by omega)]
    exact hticked

end Sys2Proof.Machine
end

section
/-! SUPPORT. The claims' timers at a frame event: which claims are dropped, which ask again, and what the others keep (R89, R93,
R97). -/

namespace Sys2Proof.Machine

variable {s t u v : State} {k j : Nat} {c : Claim}

/-! ### The frame counted -/

theorem frameCounted_eq (s : State) :
    frameCounted s =
      (s.onTimer FrameTimer.count).onArbiter fun a =>
        { a with claims := a.claims.mapIdx fun _ c => c.map fun c => { c with state := c.state.lower } } := by
  have hlower : ∀ c : Claim, { c with state := c.state.lower } =
      { c with state := match c.state with
        | .confirming number timer => .confirming number (timer - 1)
        | .waiting timer => .waiting (timer - 1)
        | other => other } := by
    rintro ⟨station, channel, level, selection, state, arrival, waitCount, zonesHeld⟩
    cases state <;> rfl
  have hcount : s.timer.count =
      { s.timer with
        frameCount := if 15999 ≤ s.timer.frameCount then 0 else s.timer.frameCount + 1
        seconds := if 15999 ≤ s.timer.frameCount then (s.timer.seconds + 1) % 4294967296 else s.timer.seconds
        divider := s.timer.divider - 1 } := by
    unfold FrameTimer.count FrameTimer.wraps
    simp only [decide_eq_true_eq]
  exact congrArg_two (fun (f : FrameTimer) (g : Claim → Claim) => { s with
    timer := f
    arbiter := { s.arbiter with claims := s.arbiter.claims.mapIdx fun _ c => c.map g } }) hcount.symm (funext hlower).symm

/-- A claim with its timer lowered by one frame. -/
def Claim.lowered (c : Claim) : Claim := { c with state := c.state.lower }

theorem frameCounted_claim (s : State) (hk : k < 16) :
    (frameCounted s).arbiter.claims.get k = (s.arbiter.claims.get k).map Claim.lowered := by
  rw [frameCounted_eq]
  exact Tab.get_mapIdx _ _ hk

/-- What happens once the timers have been lowered: the claims timed out are dropped, and those due ask again. -/
def timersServed (v : State) : State :=
  let u := dropClaims .noAnswer (slotsWhere v fun c => c.state.timedOut) v
  (slotsWhere u fun c => c.state.retryDue).foldl (fun w k => enterConfirming k w) u

theorem claimTimers_counted (s : State) : claimTimers (s.onTimer FrameTimer.count) = timersServed (frameCounted s) := by
  rw [frameCounted_eq]
  rfl

theorem validationFrame_of_none (h : ∀ e n, s.tables.edit = some e → e.phase ≠ .validating n) : validationFrame s = s := by
  unfold validationFrame
  split
  · rfl
  · next e he =>
    split
    · next n hn => exact absurd hn (h e n he)
    · rfl

theorem timersServed_worked (v : State) : Worked v (timersServed v) :=
  (dropClaims_worked _ _ _).trans (.foldl (fun t k => enterConfirming_worked k t) _ _)

/-- With no validation under way, the frame event serves the timers and gives the ticks. -/
theorem frameTicked_unvalidated (h : ∀ e n, s.tables.edit = some e → e.phase ≠ .validating n) :
    frameTicked s =
      if 15999 ≤ s.timer.frameCount then incidentTick (timersServed (frameCounted s)) else timersServed (frameCounted s) := by
  have hedit : (timersServed (frameCounted s)).tables.edit = s.tables.edit := (timersServed_worked _).edit
  have hnone : validationFrame (timersServed (frameCounted s)) = timersServed (frameCounted s) :=
    validationFrame_of_none (by rw [hedit]; exact h)
  unfold frameTicked FrameTimer.wraps
  rw [claimTimers_counted, hnone]
  simp only [decide_eq_true_eq]

/-! ### Which timers have run out -/

theorem slotsWhere_nil {p : Claim → Bool} (h : ∀ k < 16, ∀ c, s.arbiter.claims.get k = some c → p c = false) :
    slotsWhere s p = [] := by
  refine List.eq_nil_iff_forall_not_mem.mpr fun k hk => ?_
  obtain ⟨hk, c, hc, hp⟩ := mem_slotsWhere.mp hk
  rw [h k hk c hc] at hp
  exact nomatch hp

/-- The only slot below 16 that meets a condition. -/
theorem slotsWhere_singleton {p : Claim → Bool} (hk : k < 16) (hc : s.arbiter.claims.get k = some c) (hp : p c = true)
    (hothers : ∀ j < 16, j ≠ k → ∀ d, s.arbiter.claims.get j = some d → p d = false) : slotsWhere s p = [k] := by
  have hmem : ∀ j, j ∈ slotsWhere s p ↔ j ∈ [k] := fun j => by
    rw [mem_slotsWhere, List.mem_singleton]
    constructor
    · rintro ⟨hj, d, hd, hpd⟩
      refine Classical.byContradiction fun hne => ?_
      rw [hothers j hj hne d hd] at hpd
      exact nomatch hpd
    · rintro rfl
      exact ⟨hk, c, hc, hp⟩
  have hsorted : (slotsWhere s p).Pairwise (· < ·) := List.Pairwise.filter _ List.pairwise_lt_range
  exact List.Perm.eq_of_pairwise (fun a b _ _ hab hba => absurd hab (Nat.lt_asymm hba)) hsorted (List.pairwise_singleton _ k)
    ((List.perm_ext_iff_of_nodup (hsorted.imp Nat.ne_of_lt) (List.pairwise_singleton _ k)).mpr hmem)

theorem TimerRuns.timedOut (h : TimerRuns s k) (hc : s.arbiter.claims.get k = some c) : c.state.timedOut = false :=
  Bool.eq_false_iff.mpr fun hout =>
    have ⟨number, hstate⟩ := timedOut_iff.mp hout
    (h c hc).1 number hstate

theorem TimerRuns.retryDue (h : TimerRuns s k) (hc : s.arbiter.claims.get k = some c) : c.state.retryDue = false :=
  Bool.eq_false_iff.mpr fun hdue => (h c hc).2 (retryDue_iff.mp hdue)

/-! ### The claims dropped -/

theorem timedOut_offAir (hc : s.arbiter.claims.get k = some c) (h : c.state.timedOut = true) : OffAir s k := by
  obtain ⟨number, hstate⟩ := timedOut_iff.mp h
  unfold OffAir Claim.onAirStamp
  rw [hc]
  dsimp only [Option.bind_some]
  rw [hstate]

/-- The drop of claims off air changes no other claim but in its count of zones held. -/
theorem dropClaims_stay {reason : DropReason} {ks : List Nat} (h : ∀ k ∈ ks, OffAir s k) :
    ClaimsStay ((s.onFaultUnit (dropNotices reason ks s)).onArbiter (Arbiter.emptied ks)) (dropClaims reason ks s) := by
  have hno : ks.any (s.onFaultUnit (dropNotices reason ks s)).slotOnAir = false := by
    refine List.any_eq_false.mpr fun k hk => ?_
    have hoff : OffAir (s.onFaultUnit (dropNotices reason ks s)) k := h k hk
    rw [slotOnAir_offAir hoff]
    exact Bool.false_ne_true
  rw [dropClaims_eq, freeSlots_eq]
  dsimp only
  rw [hno]
  exact .chooseHolders _ _

/-- The state of each claim after a drop of claims off air. -/
theorem dropClaims_state {reason : DropReason} {ks : List Nat} (h : ∀ k ∈ ks, OffAir s k) (j : Nat) :
    ((dropClaims reason ks s).arbiter.claims.get j).map Claim.state =
      if j ∈ ks then none else (s.arbiter.claims.get j).map Claim.state := by
  rw [(dropClaims_stay h).map_eq (fun _ => rfl), emptied_get]
  split <;> rfl

theorem timeout_offAir (v : State) : ∀ k ∈ slotsWhere v fun c => c.state.timedOut, OffAir v k := by
  intro k hk
  obtain ⟨-, c, hc, hout⟩ := mem_slotsWhere.mp hk
  exact timedOut_offAir hc hout

/-- The notice that slot `k` gives when its confirm timeout has run out. -/
def timeoutNotice (v : State) (k : Nat) : Option Notice :=
  (v.arbiter.claims.get k).bind fun c =>
    match c.state with
    | .confirming _ 0 => some (.claimDropped k c.station .noAnswer)
    | _ => none

theorem timeoutNotice_of (hc : v.arbiter.claims.get k = some c) (h : c.state.timedOut = true) :
    timeoutNotice v k = some (.claimDropped k c.station .noAnswer) := by
  obtain ⟨station, channel, level, selection, state, arrival, waitCount, zonesHeld⟩ := c
  obtain ⟨number, rfl⟩ := timedOut_iff.mp h
  exact Option.bind_eq_some_iff.mpr ⟨_, hc, rfl⟩

theorem timeoutNotice_other (h : ∀ c, v.arbiter.claims.get k = some c → c.state.timedOut = false) :
    timeoutNotice v k = none := by
  unfold timeoutNotice
  rcases hc : v.arbiter.claims.get k with _ | c
  · rfl
  · have hout := h c hc
    dsimp only [Option.bind_some]
    rcases hstate : c.state with _ | ⟨number, _ | timer⟩ | timer | stamp
    case confirming.zero =>
      rw [hstate] at hout
      exact nomatch hout
    all_goals rfl

/-- The notices of the claims timed out, in ascending slot order. -/
theorem timeout_notices (v : State) (w : FaultUnit) :
    dropNotices .noAnswer (slotsWhere v fun c => c.state.timedOut) v w =
      noticesTaken ((List.range 16).filterMap (timeoutNotice v)) w := by
  unfold slotsWhere indices
  generalize List.range 16 = l
  induction l generalizing w with
  | nil => rfl
  | cons k l ih =>
    rw [List.filter_cons]
    rcases hc : v.arbiter.claims.get k with _ | c
    · have hnone : timeoutNotice v k = none := timeoutNotice_other fun c h => nomatch hc.symm.trans h
      rw [List.filterMap_cons_none hnone, if_neg Bool.false_ne_true, ih]
    · rcases hout : c.state.timedOut
      · have hnone : timeoutNotice v k = none := timeoutNotice_other fun d h => by
          obtain rfl := Option.some.inj (hc.symm.trans h)
          exact hout
        rw [List.filterMap_cons_none hnone, if_neg (by simp [hout]), ih]
      · rw [List.filterMap_cons_some (timeoutNotice_of hc hout), if_pos (by simp [hout]), dropNotices_cons, hc, ih]
        rfl

end Sys2Proof.Machine
end

section
/-! FRAME EVENTS. What a frame event counts and gives, and what a frame start does in each state of the S-link (R105,
R106, R108). -/

namespace Sys2Proof.Machine

variable {s t u v : State} {k j : Nat} {c : Claim} {ks : List Nat} {e : Edit} {n : Nat}

/-! ### Several claims that ask again (R93) -/

theorem enterConfirmings_ne (h : k ∉ ks) (u : State) :
    (ks.foldl (fun w k => enterConfirming k w) u).arbiter.claims.get k = u.arbiter.claims.get k := by
  induction ks generalizing u with
  | nil => rfl
  | cons j ks ih =>
    obtain ⟨hj, hks⟩ := List.ne_and_not_mem_of_not_mem_cons h
    exact (ih hks _).trans (enterConfirming_ne hj.symm u)

/-- Each claim that asks again is confirming with the whole confirm timeout ahead. -/
theorem enterConfirmings_asked (hk : k ∈ ks) (hc : u.arbiter.claims.get k = some c) :
    ∃ number, ((ks.foldl (fun w k => enterConfirming k w) u).arbiter.claims.get k).map Claim.state =
      some (.confirming number (16 * headerValue Header.confirmTimeout u)) := by
  induction ks generalizing u c with
  | nil => exact nomatch hk
  | cons j ks ih =>
    have hvalue : headerValue Header.confirmTimeout (enterConfirming j u) = headerValue Header.confirmTimeout u :=
      (enterConfirming_worked j u).headerValue _
    by_cases hrest : k ∈ ks
    · have hsome : ∃ d, (enterConfirming j u).arbiter.claims.get k = some d := by
        rcases Decidable.em (j = k) with rfl | hne
        · exact ⟨_, (enterConfirming_claim hc).1⟩
        · exact ⟨c, (enterConfirming_ne hne u).trans hc⟩
      obtain ⟨d, hd⟩ := hsome
      obtain ⟨number, hasked⟩ := ih hrest hd
      exact ⟨number, by rw [← hvalue]; exact hasked⟩
    · obtain rfl : k = j := (List.mem_cons.mp hk).resolve_right hrest
      have hentered := (enterConfirmings_ne hrest (enterConfirming k u)).trans (enterConfirming_claim hc).1
      exact ⟨_, congrArg (Option.map Claim.state) hentered⟩

theorem enterConfirmings_faultUnit (hs : SoundTables u) (ks : List Nat) :
    (ks.foldl (fun w k => enterConfirming k w) u).faultUnit = u.faultUnit := by
  induction ks generalizing u with
  | nil => rfl
  | cons k ks ih =>
    have hone : (enterConfirming k u).faultUnit = u.faultUnit := by
      rcases hc : u.arbiter.claims.get k with _ | c
      · unfold enterConfirming
        rw [hc]
      · rw [enterConfirming_of hc, headerUsed_sound hs]
    exact (ih ((enterConfirming_worked k u).soundTables.mpr hs)).trans hone

/-! ### The timers served -/

/-- The slots due to ask again, once those timed out have been freed. -/
def dueSlots (v : State) : List Nat :=
  slotsWhere (dropClaims .noAnswer (slotsWhere v fun c => c.state.timedOut) v) fun c => c.state.retryDue

theorem timersServed_eq (v : State) :
    timersServed v = (dueSlots v).foldl (fun w k => enterConfirming k w)
      (dropClaims .noAnswer (slotsWhere v fun c => c.state.timedOut) v) := rfl

theorem mem_timedOutSlots (hk : k < 16) (hc : v.arbiter.claims.get k = some c) :
    (k ∈ slotsWhere v fun c => c.state.timedOut) ↔ c.state.timedOut = true := by
  rw [mem_slotsWhere]
  constructor
  · rintro ⟨-, d, hd, hout⟩
    rwa [Option.some.inj (hc.symm.trans hd)]
  · exact fun hout => ⟨hk, c, hc, hout⟩

/-- A slot is due exactly when its claim's retry interval has ended. -/
theorem mem_dueSlots (hk : k < 16) : k ∈ dueSlots v ↔ ∃ c, v.arbiter.claims.get k = some c ∧ c.state.retryDue = true := by
  have hstate := dropClaims_state (reason := .noAnswer) (timeout_offAir v) k
  unfold dueSlots
  rw [mem_slotsWhere]
  constructor
  · rintro ⟨-, d, hd, hdue⟩
    rw [hd] at hstate
    split at hstate
    · exact nomatch hstate
    · obtain ⟨c, hc, hsame⟩ := Option.map_eq_some_iff.mp hstate.symm
      exact ⟨c, hc, by rwa [hsame]⟩
  · rintro ⟨c, hc, hdue⟩
    have hout : ¬c.state.timedOut = true := by
      rw [retryDue_iff.mp hdue]
      exact Bool.false_ne_true
    rw [if_neg (mt (mem_timedOutSlots hk hc).mp hout), hc] at hstate
    obtain ⟨d, hd, hsame⟩ := Option.map_eq_some_iff.mp hstate
    exact ⟨hk, d, hd, by rwa [hsame]⟩

theorem timedOutSlots_nil (h : ∀ k < 16, TimerRuns v k) : (slotsWhere v fun c => c.state.timedOut) = [] :=
  slotsWhere_nil fun k hk _ hc => (h k hk).timedOut hc

theorem dueSlots_nil (h : ∀ k < 16, ∀ c, v.arbiter.claims.get k = some c → c.state.retryDue = false) : dueSlots v = [] := by
  refine List.eq_nil_iff_forall_not_mem.mpr fun k hk => ?_
  have hlt : k < 16 := (mem_slotsWhere.mp hk).1
  obtain ⟨c, hc, hdue⟩ := (mem_dueSlots hlt).mp hk
  rw [h k hlt c hc] at hdue
  exact nomatch hdue

theorem timersServed_running (h : ∀ k < 16, TimerRuns v k) : timersServed v = v := by
  rw [timersServed_eq, dueSlots_nil fun k hk _ hc => (h k hk).retryDue hc, timedOutSlots_nil h]
  exact dropClaims_nil _ _

/-- One confirm timeout that has run out, alone. -/
theorem timersServed_timeout (hk : k < 16) (hothers : ∀ j < 16, j ≠ k → TimerRuns v j)
    (hc : v.arbiter.claims.get k = some c) (hout : c.state.timedOut = true) :
    timersServed v = dropClaims .noAnswer [k] v := by
  have hslots : (slotsWhere v fun c => c.state.timedOut) = [k] :=
    slotsWhere_singleton hk hc hout fun j hj hne _ hd => (hothers j hj hne).timedOut hd
  have hdue : dueSlots v = [] := dueSlots_nil fun j hj d hd => by
    rcases Decidable.em (j = k) with rfl | hne
    · obtain ⟨number, hstate⟩ := timedOut_iff.mp hout
      rw [← Option.some.inj (hc.symm.trans hd), hstate]
      rfl
    · exact (hothers j hj hne).retryDue hd
  rw [timersServed_eq, hdue, hslots]
  rfl

/-- One retry interval that has ended, alone. -/
theorem timersServed_retry (hk : k < 16) (hothers : ∀ j < 16, j ≠ k → TimerRuns v j)
    (hc : v.arbiter.claims.get k = some c) (hdue : c.state.retryDue = true) : timersServed v = enterConfirming k v := by
  have hslots : (slotsWhere v fun c => c.state.timedOut) = [] := slotsWhere_nil fun j hj d hd => by
    rcases Decidable.em (j = k) with rfl | hne
    · rw [← Option.some.inj (hc.symm.trans hd), retryDue_iff.mp hdue]
      rfl
    · exact (hothers j hj hne).timedOut hd
  have hdueSlots : dueSlots v = [k] := by
    unfold dueSlots
    rw [hslots, dropClaims_nil]
    exact slotsWhere_singleton hk hc hdue fun j hj hne _ hd => (hothers j hj hne).retryDue hd
  rw [timersServed_eq, hdueSlots, hslots, dropClaims_nil]
  rfl

/-- A claim timed out has left its slot. -/
theorem timersServed_dropped (hk : k < 16) (hc : v.arbiter.claims.get k = some c) (hout : c.state.timedOut = true) :
    (timersServed v).arbiter.claims.get k = none := by
  have hdue : k ∉ dueSlots v := by
    rw [mem_dueSlots hk]
    rintro ⟨d, hd, hdue⟩
    obtain ⟨number, hstate⟩ := timedOut_iff.mp hout
    rw [← Option.some.inj (hc.symm.trans hd), hstate] at hdue
    exact nomatch hdue
  have hstate := dropClaims_state (reason := .noAnswer) (timeout_offAir v) k
  rw [if_pos ((mem_timedOutSlots hk hc).mpr hout)] at hstate
  rw [timersServed_eq, enterConfirmings_ne hdue]
  exact Option.map_eq_none_iff.mp hstate

/-- A claim whose retry interval has ended asks again. -/
theorem timersServed_asked (hk : k < 16) (hc : v.arbiter.claims.get k = some c) (hdue : c.state.retryDue = true) :
    ∃ number, ((timersServed v).arbiter.claims.get k).map Claim.state =
      some (.confirming number (16 * headerValue Header.confirmTimeout v)) := by
  have hmem : k ∈ dueSlots v := (mem_dueSlots hk).mpr ⟨c, hc, hdue⟩
  obtain ⟨-, d, hd, -⟩ := mem_slotsWhere.mp hmem
  have hasked := enterConfirmings_asked hmem hd
  rw [(dropClaims_worked _ _ v).headerValue] at hasked
  exact hasked

theorem timersServed_faultUnit (hs : SoundTables v) :
    (timersServed v).faultUnit = noticesTaken ((List.range 16).filterMap (timeoutNotice v)) v.faultUnit := by
  have hs' : SoundTables (dropClaims .noAnswer (slotsWhere v fun c => c.state.timedOut) v) :=
    (dropClaims_worked _ _ v).soundTables.mpr hs
  have hnoticed : SoundTables (v.onFaultUnit (dropNotices .noAnswer (slotsWhere v fun c => c.state.timedOut) v)) := hs
  rw [timersServed_eq, enterConfirmings_faultUnit hs', dropClaims_eq, (freeSlots_quiet hnoticed).2, ← timeout_notices]
  rfl

/-! ### The frame event, by what it gives (R106) -/

theorem timerRuns_counted (hk : k < 16)
    (h : ∀ c, s.arbiter.claims.get k = some c →
      (∀ number timer, c.state = .confirming number timer → 2 ≤ timer) ∧ ∀ timer, c.state = .waiting timer → 2 ≤ timer) :
    TimerRuns (frameCounted s) k := by
  intro d hd
  rw [frameCounted_claim s hk] at hd
  obtain ⟨c, hc, rfl⟩ := Option.map_eq_some_iff.mp hd
  obtain ⟨hconfirming, hwaiting⟩ := h c hc
  have hlowered : c.lowered.state = c.state.lower := rfl
  rw [hlowered]
  rcases hstate : c.state with _ | ⟨number, timer⟩ | timer | stamp
  · exact ⟨fun _ => nofun, nofun⟩
  · have htwo := hconfirming number timer hstate
    refine ⟨fun m hm => ?_, nofun⟩
    injection hm with _ hzero
    omega
  · have htwo := hwaiting timer hstate
    refine ⟨fun _ => nofun, fun hm => ?_⟩
    injection hm with hzero
    omega
  · exact ⟨fun _ => nofun, nofun⟩

/-- With no validation, no second completed and no supervision tick, the frame event only serves the timers. -/
theorem frameEvent_plain (hv : ∀ e n, s.tables.edit = some e → e.phase ≠ .validating n)
    (hcount : s.timer.frameCount < 15999) (hdivider : 2 ≤ s.timer.divider) : frameEvent s = timersServed (frameCounted s) := by
  have hticked : frameTicked s = timersServed (frameCounted s) :=
    (frameTicked_unvalidated hv).trans (if_neg (Nat.not_le.mpr hcount))
  have htimer : (timersServed (frameCounted s)).timer.divider = s.timer.divider - 1 :=
    congrArg FrameTimer.divider (timersServed_worked (frameCounted s)).timer
  rw [frameEvent_eq, hticked]
  exact dividerTick_of_running (by omega)

/-- A second completed gives the incident tick. -/
theorem frameEvent_second (hruns : ∀ k < 16, TimerRuns (frameCounted s) k)
    (hv : ∀ e n, s.tables.edit = some e → e.phase ≠ .validating n) (hcount : 15999 ≤ s.timer.frameCount)
    (hdivider : 2 ≤ s.timer.divider) : frameEvent s = incidentTick (frameCounted s) := by
  have hticked : frameTicked s = incidentTick (frameCounted s) := by
    rw [frameTicked_unvalidated hv, if_pos hcount, timersServed_running hruns]
  have htimer : (incidentTick (frameCounted s)).timer.divider = s.timer.divider - 1 :=
    congrArg FrameTimer.divider (FrameKept.incidentTick (frameCounted s)).timer
  rw [frameEvent_eq, hticked]
  exact dividerTick_of_running (by omega)

/-- The supervision divider run down gives the supervision tick. -/
theorem frameEvent_supervision (hruns : ∀ k < 16, TimerRuns (frameCounted s) k)
    (hv : ∀ e n, s.tables.edit = some e → e.phase ≠ .validating n) (hcount : s.timer.frameCount < 15999)
    (hdivider : s.timer.divider ≤ 1) (hmail : s.mail = []) :
    frameEvent s = supervisionTick ((headerUsed (frameCounted s)).onTimer
      (FrameTimer.reload (headerValue Header.tickInterval (frameCounted s)))) := by
  have hticked : frameTicked s = frameCounted s := by
    rw [frameTicked_unvalidated hv, if_neg (Nat.not_le.mpr hcount), timersServed_running hruns]
  have hzero : (frameCounted s).timer.divider = 0 := Nat.sub_eq_zero_of_le hdivider
  have hused : (headerUsed (frameCounted s)).mail = [] := by
    unfold headerUsed useEntry
    split
    · exact hmail
    · split <;> exact hmail
  rw [frameEvent_eq, hticked, dividerTick_of_zero hzero, reloadDivider_eq]
  exact congrArg supervisionTick (drain_nil _ hused)

theorem validationFrame_of (he : s.tables.edit = some e) (hphase : e.phase = .validating n) :
    validationFrame s =
      if n ≤ 1 then endValidation e s else s.setEdit (some { e with phase := .validating (n - 1) }) := by
  unfold validationFrame
  rw [he]
  dsimp only
  rw [hphase]

/-- The validation under way is counted or ends. -/
theorem frameEvent_validation (hruns : ∀ k < 16, TimerRuns (frameCounted s) k) (hcount : s.timer.frameCount < 15999)
    (hdivider : 2 ≤ s.timer.divider) : frameEvent s = validationFrame (frameCounted s) := by
  have hwraps : ¬s.timer.wraps = true := by
    unfold FrameTimer.wraps
    simpa using hcount
  have hticked : frameTicked s = validationFrame (frameCounted s) := by
    unfold frameTicked
    rw [claimTimers_counted, timersServed_running hruns]
    exact if_neg hwraps
  have htimer : (validationFrame (frameCounted s)).timer.divider = s.timer.divider - 1 :=
    congrArg FrameTimer.divider (FrameKept.validationFrame (frameCounted s)).timer
  rw [frameEvent_eq, hticked]
  exact dividerTick_of_running (by omega)

/-- The end of a validation does not look at the frames left. -/
theorem endValidation_counted (e : Edit) (p : EditPhase) (s : State) :
    endValidation { e with phase := p } (s.setEdit (some { e with phase := p })) = endValidation e s := by
  unfold endValidation
  dsimp only
  cases validate e.staging <;> rfl

/-! ### Frame starts (R105, R108) -/

theorem frameStart_down (h : s.sPort.link = .down ∨ s.sPort.link = .island) (w : Bool) :
    frameStart w s = s.onSPort fun p => { p with link := .hunt, goodRun := 0, failedRun := 0 } := by
  rcases h with h | h <;> simp only [frameStart, h]

theorem frameStart_hunt (h : s.sPort.link = .hunt) (w : Bool) : frameStart w s = s := by simp only [frameStart, h]

theorem frameStart_locked (h : s.sPort.link = .up) (hlock : s.timer.lock = .locked) (w : Bool) :
    frameStart w s = if w = true then frameEvent s else s := by
  simp only [frameStart, h, hlock]

theorem frameStart_awaiting (h : s.sPort.link = .up) (hlock : s.timer.lock = .awaitingPhase) (w : Bool) :
    frameStart w s = frameEvent (s.onTimer fun f => { f with lock := .locked }) := by
  simp only [frameStart, h, hlock]

end Sys2Proof.Machine
end

section
/-! FRAME EVENTS. The statement: counts, timers, ticks and frame starts (R89, R93, R105, R106, R108). -/

namespace Sys2Proof.Machine

variable {s : State}

theorem afterFrame_divider (interval : Nat) (f : FrameTimer) :
    (f.afterFrame interval).divider = if f.divider ≤ 1 then 1600 * interval else f.divider - 1 := by
  unfold FrameTimer.afterFrame
  split <;> rfl

/-- The other counts of the timer do not depend on the divider. -/
theorem afterFrame_counts (interval : Nat) (f : FrameTimer) :
    (f.afterFrame interval).frameCount = (if 15999 ≤ f.frameCount then 0 else f.frameCount + 1) ∧
      (f.afterFrame interval).seconds =
        (if 15999 ≤ f.frameCount then (f.seconds + 1) % 4294967296 else f.seconds) ∧
      (f.afterFrame interval).lock = f.lock := by
  have hcount : f.count.frameCount = (if 15999 ≤ f.frameCount then 0 else f.frameCount + 1) ∧
      f.count.seconds = (if 15999 ≤ f.frameCount then (f.seconds + 1) % 4294967296 else f.seconds) ∧
      f.count.lock = f.lock := by
    unfold FrameTimer.count FrameTimer.wraps
    simp only [decide_eq_true_eq, and_self]
  unfold FrameTimer.afterFrame
  split <;> exact hcount

/-- The counts that every frame event makes, and what it leaves as it was. -/
theorem frameEvent_counts (s : State) : ∃ t, exec .frameEvent s = .next t ∧
    t.timer.frameCount = (if 15999 ≤ s.timer.frameCount then 0 else s.timer.frameCount + 1) ∧
    t.timer.seconds =
      (if 15999 ≤ s.timer.frameCount then (s.timer.seconds + 1) % 4294967296 else s.timer.seconds) ∧
    t.timer.divider =
      (if s.timer.divider ≤ 1 then 1600 * headerValue Header.tickInterval s else s.timer.divider - 1) ∧
    t.timer.lock = s.timer.lock ∧ t.sPort = s.sPort ∧ t.zPort = s.zPort ∧
    t.crosspoint.presence = s.crosspoint.presence ∧ t.crosspoint.samples = s.crosspoint.samples ∧
    t.tables.fields = s.tables.fields := by
  obtain ⟨t, hsettled, hworked⟩ := settled_worked (frameEvent s)
  have hkept := (frameEvent_kept s).trans (.of_beside hworked.toBeside)
  have htimer : t.timer = s.timer.afterFrame (headerValue Header.tickInterval s) := hkept.timer
  obtain ⟨hframe, hseconds, hlock⟩ := afterFrame_counts (headerValue Header.tickInterval s) s.timer
  rw [← htimer] at hframe hseconds hlock
  exact ⟨t, hsettled, hframe, hseconds, htimer ▸ afterFrame_divider _ _, hlock, hkept.sPort, hkept.zPort, hkept.presence,
    hkept.samples, hkept.fields⟩

/-- A frame event at which nothing runs out only counts. -/
theorem frameCounted_plain (hcount : s.timer.frameCount < 15999) :
    frameCounted s = { s with
      timer := { s.timer with frameCount := s.timer.frameCount + 1, divider := s.timer.divider - 1 }
      arbiter := { s.arbiter with claims := (frameCounted s).arbiter.claims } } := by
  have hno : ¬15999 ≤ s.timer.frameCount := Nat.not_le.mpr hcount
  have htimer : (frameCounted s).timer =
      { s.timer with frameCount := s.timer.frameCount + 1, divider := s.timer.divider - 1 } := by
    unfold frameCounted
    simp only [if_neg hno]
  rw [← htimer]
  rfl

/-- The frame event and the moment it gives leave the same. -/
theorem same_next {c d : Instr} {s v w : State} (hc : exec c s = settled w) (hd : exec d v = settled w) :
    ∃ t, exec c s = .next t ∧ exec d v = .next t := ⟨_, hc, hd⟩

/-- Settles O17: what every frame event counts, what it gives when one thing is due, and the frame starts. -/
theorem frameEventsAndStarts : Obligations.FrameEventsAndStarts := by
  refine ⟨⟨frameEvent_counts, fun s hcount hdivider hv htimers => ?plain⟩, ?given, ?starts⟩
  case plain =>
    have hruns : ∀ k < 16, TimerRuns (frameCounted s) k := fun k hk => timerRuns_counted hk (htimers k hk)
    have hframe : frameEvent s = frameCounted s :=
      (frameEvent_plain hv hcount hdivider).trans (timersServed_running hruns)
    exact ⟨frameCounted s, congrArg settled hframe, frameCounted_plain hcount, fun k hk => Tab.get_mapIdx _ _ hk⟩
  case given =>
    intro s v reloaded unvalidated asked
    have hvalue (f : Header → Nat) : headerValue f v = headerValue f s := headerValue_congr f rfl
    refine ⟨fun hruns => ⟨fun hv hcount hdivider => ?_, fun hv hcount hdivider hmail => ?_,
      fun e n he hphase hcount hdivider => ?_⟩, fun hv hcount hdivider => ⟨fun k hk hothers c hc => ⟨?_, ?_⟩, ?_⟩⟩
    · exact same_next (congrArg settled (frameEvent_second hruns hv hcount hdivider)) rfl
    · have hframe := frameEvent_supervision hruns hv hcount hdivider hmail
      rw [hvalue] at hframe
      refine same_next (congrArg settled hframe) (congrArg (fun x => settled (supervisionTick x)) ?_)
      have htimer : (headerUsed v).timer = v.timer := (useEntry_worked headerRef v).timer
      exact (congrArg (fun f => { headerUsed v with timer := FrameTimer.reload (headerValue Header.tickInterval s) f })
        htimer).symm
    · have hframe := (frameEvent_validation hruns hcount hdivider).trans (validationFrame_of (s := v) he hphase)
      refine ⟨fun hn => ?_, fun hn => ?_⟩
      · rw [if_neg (Nat.not_le.mpr hn)] at hframe
        exact congrArg settled hframe
      · rw [if_pos hn] at hframe
        refine ⟨endValidation e v, ?_, congrArg settled hframe⟩
        have hzero : n - 1 = 0 := Nat.sub_eq_zero_of_le hn
        refine congrArg Host.Outcome.next ((if_pos (congrArg EditPhase.validating hzero)).trans ?_)
        exact endValidation_counted e (.validating (n - 1)) v
    · intro number hstate
      have hout : c.state.timedOut = true := timedOut_iff.mpr ⟨number, hstate⟩
      have hframe := (frameEvent_plain hv hcount hdivider).trans (timersServed_timeout hk hothers hc hout)
      exact same_next (congrArg settled hframe) (exec_confirmTimeout_of hc hout)
    · intro hstate
      have hdue : c.state.retryDue = true := retryDue_iff.mpr hstate
      have hframe := (frameEvent_plain hv hcount hdivider).trans (timersServed_retry hk hothers hc hdue)
      exact same_next (congrArg settled hframe) (exec_retryIntervalEnd_of hc hdue)
    · refine ⟨timersServed v, congrArg settled (frameEvent_plain hv hcount hdivider), fun k hk c hc =>
        ⟨fun number hstate => timersServed_dropped hk hc (timedOut_iff.mpr ⟨number, hstate⟩), fun hstate => ?_⟩,
        fun hs => timersServed_faultUnit (v := v) hs⟩
      obtain ⟨number, hasked⟩ := timersServed_asked hk hc (retryDue_iff.mpr hstate)
      rw [hvalue] at hasked
      exact ⟨number, hasked⟩
  case starts =>
    intro w s
    refine ⟨fun h => congrArg settled (frameStart_down h w), fun h => congrArg settled (frameStart_hunt h w), ?_, ?_, ?_⟩
    · rintro h hlock rfl
      exact congrArg settled (frameStart_locked h hlock false)
    · rintro h hlock rfl
      exact same_next (congrArg settled (frameStart_locked h hlock true)) rfl
    · exact fun h hlock => same_next (congrArg settled (frameStart_awaiting h hlock w)) rfl

end Sys2Proof.Machine
end

section
/-! SUPPORT. What every command that a cell carries leaves as it was: the timer, the ports, channel presence, the presence runs and
the sample stores (file 10, section 10.2). -/

namespace Sys2Proof.Machine

variable {s t u : State} {p n : Nat} {q : Sender}

/-- The timer, the ports, channel presence, the runs and the sample stores are as they were. -/
structure Still (s t : State) : Prop where
  timer : t.timer = s.timer
  sPort : t.sPort = s.sPort
  zPort : t.zPort = s.zPort
  presence : t.crosspoint.presence = s.crosspoint.presence
  runs : t.crosspoint.runs = s.crosspoint.runs
  samples : t.crosspoint.samples = s.crosspoint.samples

theorem Beside.still (h : Beside s t) : Still s t := ⟨h.timer, h.sPort, h.zPort, h.presence, h.runs, h.samples⟩

theorem Worked.still (h : Worked s t) : Still s t := h.toBeside.still

theorem Apart.still (h : Apart s t) : Still s t :=
  ⟨h.timer, h.sPort, h.zPort, congrArg Crosspoint.presence h.crosspoint, congrArg Crosspoint.runs h.crosspoint,
    congrArg Crosspoint.samples h.crosspoint⟩

theorem Still.refl (s : State) : Still s s := (Apart.refl s).still

theorem Still.trans (h : Still s t) (g : Still t u) : Still s u :=
  ⟨g.timer.trans h.timer, g.sPort.trans h.sPort, g.zPort.trans h.zPort, g.presence.trans h.presence, g.runs.trans h.runs,
    g.samples.trans h.samples⟩

/-! ### Detection events (R37, R38, R41 to R50) -/

namespace Apart

theorem readTiming (f : Header → Nat) (s : State) : Apart s (readTiming f s).1 := by
  rw [readTiming_value]
  exact .useEntry headerRef s

theorem enterPlan (p : Nat) (s : State) : Apart s (enterPlan p s) := by
  unfold Machine.enterPlan
  rcases s.incident p with _ | i
  · exact .refl s
  · have hused := Apart.useEntry (planRef i.plan) s
    dsimp only
    rcases huse : Machine.useEntry (planRef i.plan) s with ⟨t, _ | _⟩ <;> rw [huse] at hused
    · exact hused.trans (.planFault p t)
    · exact (hused.trans (.onIncident p _ t)).trans (.dueCheck p dueFuel _)

theorem placePreAlert (p storey : Nat) (s : State) : Apart s (placePreAlert p storey s) := by
  have hcounted := Apart.readStoreyCount s
  unfold Machine.placePreAlert
  rcases hcount : Machine.readStoreyCount s with ⟨t, _ | count⟩ <;> rw [hcount] at hcounted
  · exact hcounted.trans (.askGeneral _ t)
  · have hspan := hcounted.trans (Apart.readSpan storey t)
    dsimp only
    rcases hread : Machine.readSpan storey t with ⟨u, _ | zs⟩ <;> rw [hread] at hspan
    · exact hspan.trans (.askGeneral _ u)
    · exact hspan.trans (.raiseZones p _ zs u)

theorem readWindow (confirmRequired : Bool) (s : State) : Apart s (readWindow confirmRequired s).1 := by
  cases confirmRequired
  · exact .refl s
  · exact .readTiming _ s

theorem appendIncident (d : Nat) (e : DetectionEntry) (window : Nat) (s : State) : Apart s (appendIncident d e window s) :=
  .onEngine _ s

theorem removeIncident (p : Nat) (s : State) : Apart s (removeIncident p s) := .onEngine _ s

theorem createIncident (d : Nat) (e : DetectionEntry) (s : State) : Apart s (createIncident d e s) := by
  have hread := Apart.readWindow e.confirmRequired s
  unfold Machine.createIncident
  rcases hwindow : Machine.readWindow e.confirmRequired s with ⟨t, window⟩
  rw [hwindow] at hread
  have hcreated (news : IncidentNews) := hread.trans (((Apart.appendIncident d e window t).trans (.breakEdit _)).trans
    (.notify (.incident (freeId t.engine.incidents 9 t.engine.idCounter) news) _))
  dsimp only
  split
  · split
    · exact (hcreated _).trans (.placePreAlert _ _ _)
    · exact hcreated _
  · exact (hcreated _).trans (.enterPlan _ _)

theorem joinIncident (p d : Nat) (s : State) : Apart s (joinIncident p d s) := by
  unfold Machine.joinIncident
  rcases s.incident p with _ | i
  · exact .refl s
  · dsimp only
    split
    · exact (((Apart.onIncident p _ s).trans (.onIncident p _ _)).trans (.notify _ _)).trans (.enterPlan p _)
    · exact .onIncident p _ s

theorem takeFire (d : Nat) (s : State) : Apart s (takeFire d s) := by
  have hused := Apart.useEntry (detectionRef d) s
  unfold Machine.takeFire
  rcases huse : Machine.useEntry (detectionRef d) s with ⟨t, _ | _⟩ <;> rw [huse] at hused
  · exact hused.trans (.askGeneral _ t)
  · dsimp only
    split
    · exact hused.trans (.askGeneral _ t)
    · rcases findIncident _ t.engine.incidents with _ | p
      · dsimp only
        split
        · exact (hused.trans (.notify _ t)).trans (.askGeneral _ _)
        · exact hused.trans (.createIncident d _ t)
      · exact hused.trans (.joinIncident p d t)

theorem restore (d : Nat) (s : State) : Apart s (restore d s) := by
  unfold Machine.restore
  split
  · exact .onIncident _ _ s
  · exact .refl s

theorem dfault (d : Nat) (s : State) : Apart s (dfault d s) := by
  unfold Machine.dfault
  split
  · exact .refl s
  · exact .onFaultUnit _ s

theorem dfaultClear (d : Nat) (s : State) : Apart s (dfaultClear d s) := by
  unfold Machine.dfaultClear
  split
  · exact .refl s
  · exact .onFaultUnit _ s

/-! ### Officer controls (R61 to R69) -/

theorem recomputeAfterReset (f : Nat → Bool) (s : State) : Apart s (recomputeAfterReset f s) := by
  have hread := Apart.readTiming Header.allClearPeriod s
  unfold Machine.recomputeAfterReset
  split
  · rcases htiming : Machine.readTiming Header.allClearPeriod s with ⟨t, period⟩
    rw [htiming] at hread
    exact hread.trans (.onEngine _ t)
  · exact .onEngine _ s

theorem advanceStep (p k : Nat) (s : State) : Apart s (advanceStep p k s) := by
  have happlied := Apart.applyStep p k s
  unfold Machine.advanceStep
  rcases hstep : Machine.applyStep p k s with ⟨t, _ | _⟩ <;> rw [hstep] at happlied
  · exact happlied
  · exact happlied.trans (.onIncident p _ t)

theorem removeAll (s : State) : Apart s (removeAll s) :=
  (Apart.onEngine _ s).trans (.foldl (fun t (i : Incident) => .notify (.incident i.id .removed) t) _ _)

theorem clearGeneral (s : State) : Apart s (clearGeneral s) := by
  unfold Machine.clearGeneral
  split
  · exact .refl s
  · exact (Apart.onEngine _ s).trans (.notify _ _)

end Apart

namespace Still

theorem engineEvent {f : State → State} (h : Apart s (f s)) : Still s (engineEvent f s) :=
  h.still.trans (engineEvent_beside f s).still

theorem fire (d : Nat) (s : State) : Still s (fire d s) := by
  unfold Machine.fire
  split
  · exact .refl s
  · exact .engineEvent (f := Machine.takeFire d) (.takeFire d s)

theorem holdIncident (p : Nat) (i : Incident) (s : State) : Still s (holdIncident p i s).1 := by
  unfold Machine.holdIncident
  split
  · exact ((Apart.onIncident p _ s).trans (.notify _ _)).still
  · exact .refl s

theorem resumeIncident (p : Nat) (i : Incident) (s : State) : Still s (resumeIncident p i s).1 := by
  unfold Machine.resumeIncident
  split
  · refine .engineEvent (f := fun t => Machine.dueCheck p dueFuel
      (Machine.notify (.incident i.id .active) (Machine.onIncident p (fun i => { i with state := .active }) t))) ?_
    exact (((Apart.onIncident p _ s).trans (.notify _ _)).trans (.dueCheck p dueFuel _))
  · exact .refl s

theorem advanceIncident (p : Nat) (i : Incident) (s : State) : Still s (advanceIncident p i s).1 := by
  unfold Machine.advanceIncident
  rcases i.nextStep with _ | k
  · exact .refl s
  · dsimp only
    split
    · exact .refl s
    · exact .engineEvent (f := Machine.advanceStep p k) (.advanceStep p k s)

theorem resetIncidentAt (p : Nat) (i : Incident) (s : State) : Still s (resetIncidentAt p i s).1 :=
  .engineEvent (f := fun t => Machine.recomputeAfterReset (fun z => decide (i.demand.get z ≠ .none))
    (Machine.notify (.incident i.id .removed) (Machine.removeIncident p t)))
    (((Apart.removeIncident p s).trans (.notify _ _)).trans (.recomputeAfterReset _ _))

theorem evacuateAll (s : State) : Still s (evacuateAll s) :=
  .engineEvent (f := Machine.askGeneral .officer) (.askGeneral _ s)

theorem resetAll (s : State) : Still s (resetAll s) :=
  .engineEvent (f := fun t => Machine.recomputeAfterReset (fun _ => true) (Machine.clearGeneral (Machine.removeAll t)))
    (((Apart.removeAll s).trans (.clearGeneral _)).trans (.recomputeAfterReset _ _))

/-! ### Claims (R85, R90 to R93) -/

theorem acceptClaim (k station level channel : Nat) (sel : Selection) (s : State) :
    Still s (acceptClaim k station level channel sel s) := by
  have hplaced : Worked s (placeClaim k station level channel sel s) := .onArbiter s _
  unfold Machine.acceptClaim
  split
  · exact (hplaced.trans (enterOnAir_worked k _)).still
  · exact (hplaced.trans (wouldWinTest_worked _ _)).still

theorem decideClaim (station level channel : Nat) (field : SelectionField) (s : State) :
    Still s (decideClaim station level channel field s).1 := by
  unfold Machine.decideClaim
  split
  · exact .refl s
  · split
    · exact .refl s
    · split
      · exact .refl s
      · split
        · exact .refl s
        · exact .acceptClaim _ _ _ _ _ s

theorem authorityOf (a : Nat) (s : State) : Still s (authorityOf a s).1 :=
  (lookedUp_worked { station := a, tag := 0 } s).still

theorem judgeClaim (station level channel : Nat) (field : SelectionField) (s : State) :
    Still s (judgeClaim station level channel field s).1 := by
  have hlooked := Still.authorityOf station s
  unfold Machine.judgeClaim
  rcases hfound : Machine.authorityOf station s with ⟨t, found⟩
  rw [hfound] at hlooked
  dsimp only
  split
  · exact hlooked
  · split
    · exact hlooked
    · exact hlooked.trans (.decideClaim _ _ _ _ t)

theorem reservePlace (q : Sender) (s : State) : Still s (reservePlace q s) := (Apart.onRouter _ s).still

theorem giveAnswer (w : Waiting) (body : AnswerBody) (s : State) : Still s (giveAnswer w body s) := (Apart.onRouter _ s).still

theorem claim (q : Sender) (level channel : Nat) (field : SelectionField) (s : State) :
    Still s (claim q level channel field s) := by
  have hjudged := (Still.reservePlace q s).trans (.judgeClaim q.station level channel field _)
  unfold Machine.claim
  split
  · exact .refl s
  · rcases hresult : Machine.judgeClaim q.station level channel field (Machine.reservePlace q s) with ⟨t, result⟩
    rw [hresult] at hjudged
    exact hjudged.trans (.giveAnswer _ _ t)

/-! ### Requests (R152, R155) -/

/-- A request changes the stores only as its owner does. -/
theorem request {type : Nat} {need : Authority} {refusal : List Byte} {owner : State → State × Reply}
    (howner : ∀ t, Still t (owner t).1) (q : Sender) (s : State) : Still s (request q type need refusal owner s) := by
  have hlooked := (Still.reservePlace q s).trans (.authorityOf q.station _)
  unfold Machine.request
  split
  · exact .refl s
  · rcases hfound : Machine.authorityOf q.station (Machine.reservePlace q s) with ⟨t, found⟩
    rw [hfound] at hlooked
    have howned := hlooked.trans (howner t)
    dsimp only
    split
    · exact hlooked.trans (.giveAnswer _ _ t)
    · split
      · exact hlooked.trans (.giveAnswer _ _ t)
      · rcases hreply : owner t with ⟨u, _ | ⟨st, data⟩⟩ <;> rw [hreply] at howned
        · exact howned
        · exact howned.trans (.giveAnswer _ _ u)

theorem namedControl {type : Nat} {f : Nat → Incident → State → State × Status} (hf : ∀ p i t, Still t (f p i t).1)
    (q : Sender) (id : Nat) (s : State) : Still s (namedControl type f q id s) := by
  refine .request (fun t => ?_) q s
  unfold onNamed
  split
  · exact .refl t
  · split
    · exact .refl t
    · exact hf _ _ t

theorem wholeControl {type : Nat} {f : State → State} (hf : ∀ t, Still t (f t)) (q : Sender) (s : State) :
    Still s (wholeControl type f q s) := .request (fun t => hf t) q s

theorem bindRequest (q : Sender) (address destination : Nat) (s : State) : Still s (bindRequest q address destination s) := by
  refine .request (fun t => ?_) q s
  unfold takeBinding
  split
  · exact .refl t
  · split
    · exact .refl t
    · exact ⟨rfl, rfl, rfl, rfl, rfl, rfl⟩

theorem reading {type : Nat} (f : State → Status × List Byte) (q : Sender) (s : State) :
    Still s (Machine.request q type .monitor [] (Machine.reading f) s) := .request (fun t => .refl t) q s

theorem statusRequest (q : Sender) (s : State) : Still s (statusRequest q s) := .reading _ q s

theorem readEntryRequest (q : Sender) (table index image : Nat) (s : State) : Still s (readEntryRequest q table index image s) :=
  .reading _ q s

theorem readLineRequest (q : Sender) (table index image : Nat) (s : State) : Still s (readLineRequest q table index image s) :=
  .reading _ q s

theorem readStateRequest (q : Sender) (kind form number : Nat) (s : State) :
    Still s (readStateRequest q kind form number s) := .reading _ q s

theorem findRequest (q : Sender) (first count sense : Nat) (set : BitVec 8) (s : State) :
    Still s (findRequest q first count sense set s) := .reading _ q s

theorem keepForCommit (s : State) : Still s (keepForCommit s) := (Apart.onRouter _ s).still

theorem setEdit (e : Option Edit) (s : State) : Still s (s.setEdit e) := (Apart.setEdit e s).still

theorem editBeginRequest (q : Sender) (s : State) : Still s (editBeginRequest q s) := by
  refine .request (fun t => ?_) q s
  unfold editBegin
  split
  · exact .refl t
  · split
    · exact .refl t
    · exact (markFailing_worked t).still.trans (.setEdit _ _)

theorem writeEntryRequest (q : Sender) (table index : Nat) (contents : List Byte) (s : State) :
    Still s (writeEntryRequest q table index contents s) := by
  refine .request (fun t => ?_) q s
  unfold writeEntry
  split
  · exact .refl t
  · split <;> exact .setEdit _ t

theorem writeLineRequest (q : Sender) (table index : Nat) (contents : List Byte) (s : State) :
    Still s (writeLineRequest q table index contents s) := by
  refine .request (fun t => ?_) q s
  unfold writeLine
  split
  · exact .refl t
  · split <;> exact .setEdit _ t

theorem editCommitRequest (q : Sender) (s : State) : Still s (editCommitRequest q s) := by
  refine .request (fun t => ?_) q s
  unfold editCommit
  split
  · exact .refl t
  · split
    · exact .refl t
    · split
      · exact .refl t
      · exact (Still.setEdit _ t).trans (.keepForCommit _)

theorem editCancelRequest (q : Sender) (s : State) : Still s (editCancelRequest q s) := by
  refine .request (fun t => ?_) q s
  unfold editCancel
  split
  · exact .refl t
  · split
    · exact .refl t
    · exact (Still.setEdit none t).trans (Apart.answerEnded _ _).still

theorem setMaskRequest (q : Sender) (first count value : Nat) (s : State) : Still s (setMaskRequest q first count value s) :=
  .request (fun t => (setMask_worked first count value t).still) q s

theorem setTrim (first count value : Nat) (s : State) : Still s (setTrim first count value s).1 := by
  unfold Machine.setTrim
  split
  · exact .refl s
  · exact ⟨rfl, rfl, rfl, rfl, rfl, rfl⟩

theorem setTrimRequest (q : Sender) (first count value : Nat) (s : State) : Still s (setTrimRequest q first count value s) :=
  .request (fun t => .setTrim first count value t) q s

theorem sweepRequest (q : Sender) (count : Nat) (s : State) : Still s (sweepRequest q count s) :=
  .request (fun t => (sweep_worked count t).still) q s

theorem enableNoticesRequest (q : Sender) (s : State) : Still s (enableNoticesRequest q s) :=
  .request (fun t => (Apart.onFaultUnit _ t).still.trans (Apart.notify _ _).still) q s

theorem disableNotices (s : State) : Still s (disableNotices s) := (Apart.onFaultUnit _ s).still

theorem disableNoticesRequest (q : Sender) (s : State) : Still s (disableNoticesRequest q s) :=
  .request (fun t => .disableNotices t) q s

/-! ### RESTART (R167) -/

theorem releaseAny (s : State) : Still s (releaseAny s) := by
  unfold Machine.releaseAny
  split
  · exact (releaseReservation_worked _ s).still
  · exact .refl s

theorem closeEdit (s : State) : Still s (closeEdit s) := by
  unfold Machine.closeEdit
  split
  · exact .refl s
  · exact (Still.setEdit none s).trans (Apart.answerEnded _ _).still

theorem rebuildFaults (s : State) : Still s (rebuildFaults s) := by
  unfold Machine.rebuildFaults
  rw [addFaults_eq]
  exact ((Apart.onFaultUnit _ s).trans (.onFaultUnit _ _)).still

theorem restartSequencer (s : State) : Still s (restartSequencer s) := (Worked.onSequencer s _).still.trans (.releaseAny _)

theorem stopAllClear (s : State) : Still s (stopAllClear s) :=
  .engineEvent (f := fun t => t.onEngine fun e => { e with allClear := .const 0 }) (.onEngine _ s)

theorem emptyNotices (s : State) : Still s (emptyNotices s) := (Apart.onFaultUnit _ s).still

theorem emptyConfirms (s : State) : Still s (emptyConfirms s) := (Apart.onRouter _ s).still

theorem restart (s : State) : Still s (restart s) :=
  have hstarted := ((dropAll_worked .restart s).still.trans (.closeEdit _)).trans (.restartSequencer _)
  have hbased := (hstarted.trans (.stopAllClear _)).trans (takeBaseValues_worked _).still
  ((hbased.trans (.rebuildFaults _)).trans (.emptyNotices _)).trans (.emptyConfirms _)

theorem restartRequest (q : Sender) (s : State) : Still s (restartRequest q s) := by
  refine .request (fun t => ?_) q s
  split
  · exact .restart t
  · exact .refl t

theorem unknownRequest (q : Sender) (type : Nat) (s : State) : Still s (unknownRequest q type s) := by
  unfold Machine.unknownRequest
  split
  · exact (Still.reservePlace q s).trans (.giveAnswer _ _ _)
  · exact .refl s

/-- Whatever a cell carries, the stores, the ports and the timer stand still. -/
theorem takeCommand (i : Instr) (s : State) : Still s (takeCommand i s) := by
  cases i with
  | fire d => exact .fire d s
  | restore d => exact (Apart.restore d s).still
  | dfault d => exact (Apart.dfault d s).still
  | dfaultClear d => exact (Apart.dfaultClear d s).still
  | claim q level channel field => exact .claim q level channel field s
  | release station slot => exact (release_worked station slot s).still
  | answerReady station slot n => exact (answer_worked takeReady_worked station slot n s).still
  | answerDefault station slot n => exact (answer_worked takeDefault_worked station slot n s).still
  | answerWithdraw station slot n => exact (answer_worked takeWithdraw_worked station slot n s).still
  | answerWait station slot n => exact (answer_worked takeWait_worked station slot n s).still
  | bind q address destination => exact .bindRequest q address destination s
  | status q => exact .statusRequest q s
  | readEntry q table index image => exact .readEntryRequest q table index image s
  | readLine q table index image => exact .readLineRequest q table index image s
  | readState q kind form number => exact .readStateRequest q kind form number s
  | find q first count sense set => exact .findRequest q first count sense set s
  | editBegin q => exact .editBeginRequest q s
  | writeEntry q table index contents => exact .writeEntryRequest q table index contents s
  | writeLine q table index contents => exact .writeLineRequest q table index contents s
  | editCommit q => exact .editCommitRequest q s
  | editCancel q => exact .editCancelRequest q s
  | setMask q first count value => exact .setMaskRequest q first count value s
  | setTrim q first count value => exact .setTrimRequest q first count value s
  | hold q id => exact .namedControl .holdIncident q id s
  | resume q id => exact .namedControl .resumeIncident q id s
  | advance q id => exact .namedControl .advanceIncident q id s
  | resetIncident q id => exact .namedControl .resetIncidentAt q id s
  | evacuateAll q => exact .wholeControl .evacuateAll q s
  | resetAll q => exact .wholeControl .resetAll q s
  | sweep q count => exact .sweepRequest q count s
  | enableNotices q => exact .enableNoticesRequest q s
  | disableNotices q => exact .disableNoticesRequest q s
  | restart q => exact .restartRequest q s
  | unknownRequest q type => exact .unknownRequest q type s
  | _ => exact .refl s

theorem forwardSToZ (c : List Byte) (s : State) : Still s (forwardSToZ c s) := by
  unfold Machine.forwardSToZ
  split
  · exact (Apart.onRouter _ s).still
  · exact .refl s

theorem takeCell (c : List Byte) (s : State) : Still s (takeCell c s) := by
  unfold Machine.takeCell
  split
  · split
    · exact .takeCommand _ s
    · exact .refl s
  · exact .refl s

theorem deliverCell (c : List Byte) (s : State) : Still s (deliverCell c s) := by
  unfold Machine.deliverCell
  split
  · split
    · exact (Still.takeCell c s).trans (.forwardSToZ c _)
    · exact .forwardSToZ c s
  · split
    · exact .takeCell c s
    · exact .forwardSToZ c s

end Still

end Sys2Proof.Machine
end

section
/-! SUPPORT. One channel slot of a good period: the sample, the presence run, and what a change of presence asks of the Zone Arbiter
and the Fault Unit (R98, R115 to R117). -/

namespace Sys2Proof.Machine

variable {s t u : State} {c k z : Nat} {v : Sample} {bit : Bool}

/-! ### SOURCE_LOST and the work of the arbiter (R98) -/

/-- No SOURCE_LOST is listed that was not. -/
def NoNewSource (s t : State) : Prop := ∀ c, t.listed (.sourceLost c) = true → s.listed (.sourceLost c) = true

namespace NoNewSource

theorem of_eq (h : t.faultUnit = s.faultUnit) : NoNewSource s t := fun c hc => by
  unfold State.listed at *
  rwa [h] at hc

theorem refl (s : State) : NoNewSource s s := fun _ h => h

theorem trans (h : NoNewSource s t) (g : NoNewSource t u) : NoNewSource s u := fun c hc => h c (g c hc)

theorem foldl {α : Type} {f : State → α → State} (h : ∀ t a, NoNewSource t (f t a)) (l : List α) (s : State) :
    NoNewSource s (l.foldl f s) := by
  induction l generalizing s with
  | nil => exact .refl s
  | cons a l ih => exact (h s a).trans (ih _)

theorem useEntry (r : EntryRef) (s : State) : NoNewSource s (useEntry r s).1 := by
  unfold Machine.useEntry
  split
  · exact fun c hc => FaultUnit.add_listed hc nofun
  · split
    · exact .refl s
    · exact fun c hc => FaultUnit.add_listed hc nofun

theorem zoneDisabledCheck (old z : Nat) (s : State) : NoNewSource s (zoneDisabledCheck old z s) := by
  unfold Machine.zoneDisabledCheck
  split
  · exact fun c hc => FaultUnit.add_listed hc nofun
  · split
    · exact fun c hc => (FaultUnit.remove_listed_iff.mp hc).1
    · exact .refl s

theorem touchZone (z : Nat) (s : State) : NoNewSource s (touchZone z s).1 := by
  have hused := NoNewSource.useEntry (zoneRef z) s
  unfold Machine.touchZone
  rcases huse : Machine.useEntry (zoneRef z) s with ⟨t, _ | _⟩ <;> rw [huse] at hused
  · dsimp only
    split
    · exact hused
    · exact (hused.trans (.of_eq rfl)).trans (.zoneDisabledCheck _ z (setTrimOf z 0 (setMaskOf z 0 t)))
  · exact hused

theorem touchZones (zs : List Nat) (s : State) : NoNewSource s (touchZones zs s).1 := by
  induction zs generalizing s with
  | nil => exact .refl s
  | cons z zs ih => exact (NoNewSource.touchZone z s).trans (ih _)

theorem giveHolder (z : Nat) (h : Holder) (level : Nat) (s : State) : NoNewSource s (giveHolder z h level s) := by
  have hrest := (giveHolder_given z h level s).rest
  refine .of_eq ?_
  rw [hrest]

theorem decideHolder (z : Nat) (s : State) : NoNewSource s (decideHolder z s) :=
  decideHolder_cases (fun h level _ => .giveHolder z h level s) fun h level _ =>
    (NoNewSource.giveHolder z h level (unreserved s)).trans (.of_eq rfl)

theorem chooseHolder (z : Nat) (s : State) : NoNewSource s (chooseHolder z s) := by
  rw [chooseHolder_eq]
  split
  · exact (NoNewSource.touchZone z s).trans (.decideHolder z _)
  · exact .decideHolder z s

theorem chooseHolders (zs : List Nat) (s : State) : NoNewSource s (chooseHolders zs s) :=
  .foldl (fun t z => .chooseHolder z t) zs s

theorem enterConfirming (k : Nat) (s : State) : NoNewSource s (enterConfirming k s) := by
  unfold Machine.enterConfirming
  split
  · exact .refl s
  · rw [readTiming_value]
    exact (NoNewSource.useEntry headerRef s).trans (.of_eq rfl)

theorem confirmWinners (ks : List Nat) (s : State) : NoNewSource s (confirmWinners ks s) := by
  refine .foldl (fun t k => ?_) ks s
  split
  · exact .enterConfirming k t
  · exact .refl t

theorem wouldWinTest (ks : List Nat) (s : State) : NoNewSource s (wouldWinTest ks s) := by
  have hchosen (zs : List Nat) (u : State) :
      NoNewSource u (Machine.chooseHolders (Machine.touchZones zs u).2 (Machine.touchZones zs u).1) :=
    (NoNewSource.touchZones zs u).trans (.chooseHolders _ _)
  have h := NoNewSource.touchZones (testReads s ks) s
  have g := hchosen (testReads s ks) s
  unfold Machine.wouldWinTest
  split
  · next t ht =>
    rw [ht] at h
    exact h.trans (.confirmWinners ks t)
  · next t fresh _ ht =>
    rw [ht] at g
    exact g.trans ((NoNewSource.confirmWinners ks _).trans ((hchosen _ _).trans (.confirmWinners _ _)))

theorem freeSlots (ks : List Nat) (s : State) : NoNewSource s (freeSlots ks s) := by
  have hchosen := (NoNewSource.of_eq rfl : NoNewSource s (s.onArbiter (Arbiter.emptied ks))).trans
    (.chooseHolders (heldBy s ks) _)
  rw [freeSlots_eq]
  dsimp only
  split
  · exact hchosen.trans (.wouldWinTest _ _)
  · exact hchosen

theorem dropClaims (reason : DropReason) (ks : List Nat) (s : State) : NoNewSource s (dropClaims reason ks s) := by
  have hnoticed : NoNewSource s (s.onFaultUnit (dropNotices reason ks s)) := fun c hc => by
    have hsame := (dropNotices_list reason ks s s.faultUnit (.sourceLost c)).1
    exact hsame.symm.trans hc
  rw [dropClaims_eq]
  exact hnoticed.trans (.freeSlots ks _)

end NoNewSource

/-! ### A claim table that loses a channel -/

/-- Each claim stands in its slot as it was, but for what choices and tests change, or its slot has been freed. -/
def ClaimsFrom (s t : State) : Prop :=
  ∀ k d, t.arbiter.claims.get k = some d → ∃ e, s.arbiter.claims.get k = some e ∧ d.channel = e.channel

theorem ClaimsFrom.of_eq (h : t.arbiter = s.arbiter) : ClaimsFrom s t := fun _ d hd => ⟨d, h ▸ hd, rfl⟩

theorem ClaimsFrom.trans (h : ClaimsFrom s t) (g : ClaimsFrom t u) : ClaimsFrom s u := fun k d hd =>
  have ⟨e, he, hde⟩ := g k d hd
  have ⟨f, hf, hef⟩ := h k e he
  ⟨f, hf, hde.trans hef⟩

theorem ClaimsFrom.dropClaims (reason : DropReason) (ks : List Nat) (s : State) : ClaimsFrom s (dropClaims reason ks s) :=
  fun _ d hd =>
    have ⟨_, e, he, hid⟩ := dropClaims_claim hd
    have hchannel : d.identity.channel = e.identity.channel := congrArg Claim.channel hid
    ⟨e, he, hchannel⟩

theorem channelLost_fault (hs : SoundTables s) (c : Nat) :
    (channelLost c s).faultUnit.list = s.faultUnit.list ∧ (channelLost c s).faultUnit.overflow = s.faultUnit.overflow ∧
      (FaultUnitLaw s.faultUnit → FaultUnitLaw (channelLost c s).faultUnit) := by
  unfold channelLost
  generalize slotsWhere s (fun d => decide (d.channel = c)) = ks
  have hnoticed : SoundTables (s.onFaultUnit (dropNotices .sourceLost ks s)) := hs
  have hunit : (dropClaims .sourceLost ks s).faultUnit = dropNotices .sourceLost ks s s.faultUnit := by
    rw [dropClaims_eq]
    exact (freeSlots_quiet hnoticed).2
  rw [hunit]
  clear hunit hnoticed
  unfold dropNotices
  generalize s.faultUnit = w
  induction ks generalizing w with
  | nil => exact ⟨rfl, rfl, id⟩
  | cons k ks ih =>
    rw [List.foldl_cons]
    rcases s.arbiter.claims.get k with _ | d
    · exact ih w
    · obtain ⟨hlist, hoverflow, hlaw⟩ := ih (w.take (.claimDropped k d.station .sourceLost))
      exact ⟨hlist.trans (FaultUnit.take_list _ _).1, hoverflow.trans (FaultUnit.take_list _ _).2, fun h => hlaw (h.take _)⟩

/-! ### The Fault List while channels change (R170, R171) -/

namespace FaultUnit

variable {w : FaultUnit} {f g : FaultId} {seconds n : Nat}

/-- The fault is listed, or the list has overflowed and has lost at most `n` entries since it was full. -/
def Held (f : FaultId) (n : Nat) (w : FaultUnit) : Prop :=
  w.listed f = true ∨ (w.overflow = true ∧ 64 ≤ w.list.length + n)

theorem Held.mono {m : Nat} (h : w.Held f n) (hnm : n ≤ m) : w.Held f m := h.imp_right fun ⟨ho, hl⟩ => ⟨ho, by omega⟩

theorem Held.congr {x : FaultUnit} (h : w.Held f n) (hlist : x.list = w.list) (hoverflow : x.overflow = w.overflow) :
    x.Held f n := by
  unfold Held listed at *
  rwa [hlist, hoverflow]

theorem held_add (h : FaultUnitLaw w) (f : FaultId) (seconds : Nat) : (w.add f seconds).Held f 0 := by
  rcases add_listed_or_full f seconds h with hlisted | ⟨hoverflow, hlist, hfull⟩
  · exact .inl hlisted
  · exact .inr ⟨hoverflow, Nat.le_of_eq (by rw [hlist, hfull])⟩

theorem length_le_add (f : FaultId) (seconds : Nat) (w : FaultUnit) : w.list.length ≤ (w.add f seconds).list.length := by
  by_cases h : ∃ e ∈ w.list, e.fault = f
  · exact Nat.le_of_eq (by rw [add_of_listed h])
  · rcases Nat.lt_or_ge w.list.length 64 with hroom | hfull
    · rw [add_of_room h hroom, (take_list _ _).1]
      simp
    · exact Nat.le_of_eq (by rw [add_of_full h hfull])

theorem Held.add (h : w.Held f n) (g : FaultId) (seconds : Nat) : (w.add g seconds).Held f n :=
  h.imp listed_add_of_listed fun ⟨hoverflow, hlength⟩ =>
    ⟨add_overflow hoverflow g seconds, Nat.le_trans hlength (Nat.add_le_add_right (length_le_add g seconds w) n)⟩

/-- A removal takes at most one entry. -/
theorem length_le_remove (h : FaultUnitLaw w) (f : FaultId) (seconds : Nat) :
    w.list.length ≤ (w.remove f seconds).list.length + 1 := by
  have hone : (w.list.map FaultEntry.fault).count f ≤ 1 := List.nodup_iff_count.mp h.noTwoAlike f
  have hsplit := List.length_eq_countP_add_countP (fun e : FaultEntry => decide (e.fault ≠ f)) (l := w.list)
  have hgone : w.list.countP (fun e => ¬decide (e.fault ≠ f) = true) = (w.list.map FaultEntry.fault).count f := by
    rw [List.count, List.countP_map]
    exact List.countP_congr fun e _ => by simp
  rw [remove_list, ← List.countP_eq_length_filter]
  omega

theorem Held.remove (hlaw : FaultUnitLaw w) (h : w.Held f n) (hne : f ≠ g) (hn : n < 63) :
    (w.remove g seconds).Held f (n + 1) := by
  rcases h with hlisted | ⟨hoverflow, hlength⟩
  · exact .inl (remove_listed_iff.mpr ⟨hlisted, hne⟩)
  · have hless := length_le_remove hlaw g seconds
    obtain ⟨e, he⟩ : ∃ e, e ∈ (w.remove g seconds).list :=
      List.exists_mem_of_length_pos (by omega)
    have hlisted := remove_listed_iff.mp (listed_iff.mpr ⟨e, he, rfl⟩)
    exact .inr ⟨(remove_overflow hlisted.1 hlisted.2).trans hoverflow, by omega⟩

end FaultUnit

end Sys2Proof.Machine
end

section
/-! SUPPORT. The channel slots of a good period: one slot, and all 32 in order (R98, R115 to R117). -/

namespace Sys2Proof.Machine

variable {s t u : State} {c d k n : Nat} {v : Sample} {bit : Bool} {l : List Byte}

/-! ### One slot -/

/-- The presence of a channel after a change. -/
def turnedTo (p : Presence) : Presence := if p = .present then .lost else .present

/-- The present bit of channel `c` tells against its presence. -/
def Turns (s : State) (c : Nat) (bit : Bool) : Prop := bitDiffers (s.crosspoint.presence.get c) bit = true

/-- One more such bit changes the presence of channel `c`. -/
def Full (s : State) (c : Nat) : Prop := 64 ≤ s.crosspoint.runs.get c + 1

/-- The faults after channel `c` has changed its presence. -/
def sourceFaults (s : State) (c : Nat) : FaultUnit :=
  match s.crosspoint.presence.get c with
  | .absent => s.faultUnit
  | .lost => s.faultUnit.remove (.sourceLost c) s.timer.seconds
  | .present => s.faultUnit.add (.sourceLost c) s.timer.seconds

/-- What the slot of channel `c` does, whatever its bit. -/
structure SlotKept (c : Nat) (v : Sample) (s t : State) : Prop where
  timer : t.timer = s.timer
  sPort : t.sPort = s.sPort
  zPort : t.zPort = s.zPort
  sound : SoundTables s → SoundTables t
  claims : ClaimsFrom s t
  samples : t.crosspoint.samples = s.crosspoint.samples.set c v
  source : ∀ d ≠ c, t.listed (.sourceLost d) = true → s.listed (.sourceLost d) = true

/-- What the slot does where the presence stays: only the run counter moves. -/
structure SlotStays (c run : Nat) (s t : State) : Prop where
  runs : t.crosspoint.runs = s.crosspoint.runs.set c run
  presence : t.crosspoint.presence = s.crosspoint.presence
  faultUnit : t.faultUnit = s.faultUnit
  arbiter : t.arbiter = s.arbiter
  mail : t.mail = s.mail

/-- What the slot does where the presence changes. -/
structure SlotChanges (c : Nat) (s t : State) : Prop where
  runs : t.crosspoint.runs = s.crosspoint.runs.set c 0
  presence : t.crosspoint.presence = s.crosspoint.presence.set c (turnedTo (s.crosspoint.presence.get c))
  dropped : s.crosspoint.presence.get c = .present → ∀ k < 16, ∀ d, t.arbiter.claims.get k = some d → d.channel ≠ c
  cleared : s.crosspoint.presence.get c = .lost → t.listed (.sourceLost c) = false
  faults : SoundTables s → t.faultUnit.list = (sourceFaults s c).list ∧ t.faultUnit.overflow = (sourceFaults s c).overflow ∧
    (FaultUnitLaw s.faultUnit → FaultUnitLaw t.faultUnit)

/-- The slot of channel `c`, before a change of presence is acted on. -/
def slotSet (c : Nat) (v : Sample) (run : Nat) (s : State) : State := setRun c run (setSample c v s)

theorem slotSet_kept (c run : Nat) (v : Sample) (s : State) :
    SlotKept c v s (slotSet c v run s) ∧ SlotStays c run s (slotSet c v run s) :=
  ⟨⟨rfl, rfl, rfl, id, .of_eq rfl, rfl, fun _ _ h => h⟩, ⟨rfl, rfl, rfl, rfl, rfl⟩⟩

theorem takeSlot_stays (h : ¬Turns s c bit) : takeSlot c v bit s = slotSet c v 0 s := if_neg h

theorem takeSlot_counts (h : Turns s c bit) (hfull : ¬Full s c) :
    takeSlot c v bit s = slotSet c v (s.crosspoint.runs.get c + 1) s := (if_pos h).trans (if_neg hfull)

theorem takeSlot_turns (h : Turns s c bit) (hfull : Full s c) : takeSlot c v bit s = changePresence c (setSample c v s) :=
  (if_pos h).trans (if_pos hfull)

/-- A channel found PRESENT again. -/
theorem change_found (h : s.crosspoint.presence.get c ≠ .present) :
    SlotKept c v s (changePresence c (setSample c v s)) ∧ SlotChanges c s (changePresence c (setSample c v s)) := by
  have hturned : turnedTo (s.crosspoint.presence.get c) = .present := if_neg h
  rcases hp : s.crosspoint.presence.get c with _ | _ | _
  · have hchange : changePresence c (setSample c v s) = setPresence c .present (slotSet c v 0 s) := changePresence_absent hp
    have hfaults : sourceFaults s c = s.faultUnit := by
      unfold sourceFaults
      rw [hp]
    rw [hchange]
    refine ⟨⟨rfl, rfl, rfl, id, .of_eq rfl, rfl, fun _ _ h => h⟩, rfl, ?_, fun hq => absurd hq h,
      fun hq => (nomatch hp.symm.trans hq), fun _ => ?_⟩
    · rw [hturned]
      rfl
    · rw [hfaults]
      exact ⟨rfl, rfl, id⟩
  · exact absurd hp h
  · have hchange : changePresence c (setSample c v s) =
        removeFault (.sourceLost c) (setPresence c .present (slotSet c v 0 s)) := changePresence_lost hp
    have hfaults : sourceFaults s c = s.faultUnit.remove (.sourceLost c) s.timer.seconds := by
      unfold sourceFaults
      rw [hp]
    rw [hchange]
    refine ⟨⟨rfl, rfl, rfl, id, .of_eq rfl, rfl, fun d _ hd => (FaultUnit.remove_listed_iff.mp hd).1⟩, rfl, ?_,
      fun hq => absurd hq h, fun _ => ?_, fun _ => ?_⟩
    · rw [hturned]
      rfl
    · exact Bool.eq_false_iff.mpr fun hlisted => (FaultUnit.remove_listed_iff.mp hlisted).2 rfl
    · rw [hfaults]
      exact ⟨rfl, rfl, fun hl => hl.remove _ _⟩

/-- A channel found LOST. -/
theorem change_lost (hp : s.crosspoint.presence.get c = .present) :
    SlotKept c v s (changePresence c (setSample c v s)) ∧ SlotChanges c s (changePresence c (setSample c v s)) := by
  have hchange : changePresence c (setSample c v s) =
      channelLost c (addFault (.sourceLost c) (setPresence c .lost (slotSet c v 0 s))) := changePresence_present hp
  have hturned : turnedTo (s.crosspoint.presence.get c) = .lost := if_pos hp
  have hfaults : sourceFaults s c = s.faultUnit.add (.sourceLost c) s.timer.seconds := by
    unfold sourceFaults
    rw [hp]
  rw [hchange]
  generalize hasked : addFault (.sourceLost c) (setPresence c .lost (slotSet c v 0 s)) = x
  have hworked := channelLost_worked c x
  have hsource : NoNewSource x (channelLost c x) := .dropClaims _ _ x
  have hclaims : ClaimsFrom x (channelLost c x) := .dropClaims _ _ x
  refine ⟨⟨?_, ?_, ?_, fun hs => hworked.soundTables.mpr ?_, .trans ?_ hclaims, ?_, fun d hd hlisted => ?_⟩, ?_, ?_,
    fun _ k hk d hd => channelLost_channel hk hd, fun hq => (nomatch hp.symm.trans hq), fun hs => ?_⟩
  · rw [hworked.timer, ← hasked]
    rfl
  · rw [hworked.sPort, ← hasked]
    rfl
  · rw [hworked.zPort, ← hasked]
    rfl
  · rw [← hasked]
    exact hs
  · rw [← hasked]
    exact .of_eq rfl
  · rw [hworked.samples, ← hasked]
    rfl
  · have hx := hsource d hlisted
    rw [← hasked] at hx
    exact FaultUnit.add_listed hx fun heq => hd (FaultId.sourceLost.inj heq)
  · rw [hworked.runs, ← hasked]
    rfl
  · rw [hworked.presence, ← hasked, hturned]
    rfl
  · have hsx : SoundTables x := by
      rw [← hasked]
      exact hs
    obtain ⟨hlist, hoverflow, hlaw⟩ := channelLost_fault hsx c
    have hunit : x.faultUnit = sourceFaults s c := by
      rw [← hasked, hfaults]
      rfl
    rw [hunit] at hlist hoverflow hlaw
    exact ⟨hlist, hoverflow, fun hl => hlaw (hfaults ▸ hl.add _ _)⟩

/-- The slot of a channel. -/
theorem takeSlot_cases (c : Nat) (v : Sample) (bit : Bool) (s : State) :
    SlotKept c v s (takeSlot c v bit s) ∧
      (¬Turns s c bit → SlotStays c 0 s (takeSlot c v bit s)) ∧
      (Turns s c bit → ¬Full s c → SlotStays c (s.crosspoint.runs.get c + 1) s (takeSlot c v bit s)) ∧
      (Turns s c bit → Full s c → SlotChanges c s (takeSlot c v bit s)) := by
  by_cases hturns : Turns s c bit
  · by_cases hfull : Full s c
    · have hchange : SlotKept c v s (changePresence c (setSample c v s)) ∧
          SlotChanges c s (changePresence c (setSample c v s)) := by
        by_cases hp : s.crosspoint.presence.get c = .present
        · exact change_lost hp
        · exact change_found hp
      rw [takeSlot_turns hturns hfull]
      exact ⟨hchange.1, absurd hturns, fun _ h => absurd hfull h, fun _ _ => hchange.2⟩
    · rw [takeSlot_counts hturns hfull]
      obtain ⟨hkept, hstays⟩ := slotSet_kept c (s.crosspoint.runs.get c + 1) v s
      exact ⟨hkept, absurd hturns, fun _ _ => hstays, fun _ h => absurd h hfull⟩
  · rw [takeSlot_stays hturns]
    obtain ⟨hkept, hstays⟩ := slotSet_kept c 0 v s
    exact ⟨hkept, fun _ => hstays, fun h => absurd h hturns, fun h => absurd h hturns⟩

end Sys2Proof.Machine
end

section
/-! SUPPORT. All 32 channel slots of a good period, in ascending order (R98, R115 to R117). -/

namespace Sys2Proof.Machine

variable {s t u : State} {c d n : Nat} {v : Sample} {bit : Bool} {l : List Byte}

/-! ### Slots of other channels -/

/-- The store, the run and the presence of channel `c` are as they were. -/
structure ChannelKept (c : Nat) (s t : State) : Prop where
  samples : t.crosspoint.samples.get c = s.crosspoint.samples.get c
  runs : t.crosspoint.runs.get c = s.crosspoint.runs.get c
  presence : t.crosspoint.presence.get c = s.crosspoint.presence.get c

theorem ChannelKept.trans (h : ChannelKept c s t) (g : ChannelKept c t u) : ChannelKept c s u :=
  ⟨g.samples.trans h.samples, g.runs.trans h.runs, g.presence.trans h.presence⟩

theorem takeSlot_other (h : d ≠ c) (v : Sample) (bit : Bool) (s : State) : ChannelKept c s (takeSlot d v bit s) := by
  obtain ⟨hkept, hstays, hcounts, hchanges⟩ := takeSlot_cases d v bit s
  have hsamples : (takeSlot d v bit s).crosspoint.samples.get c = s.crosspoint.samples.get c := by
    rw [hkept.samples]
    exact Tab.get_set_ne _ _ h
  have hstay {run : Nat} (hs : SlotStays d run s (takeSlot d v bit s)) : ChannelKept c s (takeSlot d v bit s) := by
    refine ⟨hsamples, ?_, ?_⟩
    · rw [hs.runs]
      exact Tab.get_set_ne _ _ h
    · rw [hs.presence]
  by_cases hturns : Turns s d bit
  · by_cases hfull : Full s d
    · have hchange := hchanges hturns hfull
      refine ⟨hsamples, ?_, ?_⟩
      · rw [hchange.runs]
        exact Tab.get_set_ne _ _ h
      · rw [hchange.presence]
        exact Tab.get_set_ne _ _ h
    · exact hstay (hcounts hturns hfull)
  · exact hstay (hstays hturns)

/-! ### The slots up to a channel -/

/-- What a good period has done to channel `c` once its slot has been taken. -/
structure SlotDone (l : List Byte) (c : Nat) (s t : State) : Prop where
  sample : t.crosspoint.samples.get c = frameSample l c
  stays : ¬Turns s c (bitAt l 65 c) →
    t.crosspoint.runs.get c = 0 ∧ t.crosspoint.presence.get c = s.crosspoint.presence.get c
  counts : Turns s c (bitAt l 65 c) → ¬Full s c → t.crosspoint.runs.get c = s.crosspoint.runs.get c + 1 ∧
    t.crosspoint.presence.get c = s.crosspoint.presence.get c
  turned : Turns s c (bitAt l 65 c) → Full s c → t.crosspoint.runs.get c = 0 ∧
    t.crosspoint.presence.get c = turnedTo (s.crosspoint.presence.get c)

theorem SlotDone.kept (h : SlotDone l c s t) (g : ChannelKept c t u) : SlotDone l c s u := by
  obtain ⟨hsamples, hruns, hpresence⟩ := g
  constructor <;> simp only [hsamples, hruns, hpresence]
  · exact h.sample
  · exact h.stays
  · exact h.counts
  · exact h.turned

theorem takeSlot_done (hc : c < 32) (h : ChannelKept c s t) :
    SlotDone l c s (takeSlot c (frameSample l c) (bitAt l 65 c) t) := by
  obtain ⟨hkept, hstays, hcounts, hchanges⟩ := takeSlot_cases c (frameSample l c) (bitAt l 65 c) t
  unfold Turns Full at *
  rw [h.runs] at hcounts hchanges
  rw [h.presence] at hstays hcounts hchanges
  refine ⟨?_, fun hturns => ?_, fun hturns hfull => ?_, fun hturns hfull => ?_⟩
  · rw [hkept.samples]
    exact Tab.get_set_self _ _ hc
  · rw [(hstays hturns).runs, (hstays hturns).presence]
    exact ⟨Tab.get_set_self _ _ hc, h.presence⟩
  · rw [(hcounts hturns hfull).runs, (hcounts hturns hfull).presence]
    exact ⟨Tab.get_set_self _ _ hc, h.presence⟩
  · rw [(hchanges hturns hfull).runs, (hchanges hturns hfull).presence, h.presence]
    exact ⟨Tab.get_set_self _ _ hc, Tab.get_set_self _ _ hc⟩

/-- Channel `c` changes its presence in this period. -/
def Turned (l : List Byte) (s : State) (c : Nat) : Prop := Turns s c (bitAt l 65 c) ∧ Full s c

theorem turned_iff (h : ChannelKept c s t) : Turned l t c ↔ Turned l s c := by
  unfold Turned Turns Full
  rw [h.presence, h.runs]

/-- The slots of the first `n` channels have been taken. -/
structure SlotsTaken (l : List Byte) (n : Nat) (s t : State) : Prop where
  timer : t.timer = s.timer
  sPort : t.sPort = s.sPort
  zPort : t.zPort = s.zPort
  sound : SoundTables s → SoundTables t
  ahead : ∀ c, n ≤ c → ChannelKept c s t
  done : ∀ c < n, SlotDone l c s t
  dropped : ∀ c < n, Turned l s c → s.crosspoint.presence.get c = .present →
    ∀ k < 16, ∀ d, t.arbiter.claims.get k = some d → d.channel ≠ c
  cleared : ∀ c < n, Turned l s c → s.crosspoint.presence.get c = .lost → t.listed (.sourceLost c) = false
  held : SoundTables s → FaultUnitLaw s.faultUnit → FaultUnitLaw t.faultUnit ∧
    ∀ c < n, Turned l s c → s.crosspoint.presence.get c = .present → t.faultUnit.Held (.sourceLost c) n
  quiet : (∀ c < n, ¬Turned l s c) → t.faultUnit = s.faultUnit ∧ t.arbiter = s.arbiter ∧ t.mail = s.mail

theorem SlotsTaken.refl (l : List Byte) (s : State) : SlotsTaken l 0 s s where
  timer := rfl
  sPort := rfl
  zPort := rfl
  sound := id
  ahead _ _ := ⟨rfl, rfl, rfl⟩
  done _ h := absurd h (Nat.not_lt_zero _)
  dropped _ h := absurd h (Nat.not_lt_zero _)
  cleared _ h := absurd h (Nat.not_lt_zero _)
  held _ hl := ⟨hl, fun _ h => absurd h (Nat.not_lt_zero _)⟩
  quiet _ := ⟨rfl, rfl, rfl⟩

/-- The faults asked for by one more channel keep those of the channels before. -/
theorem held_step (hn : n < 32) (hs : SoundTables t) (hl : FaultUnitLaw t.faultUnit) (hchange : SlotChanges n t u) :
    FaultUnitLaw u.faultUnit ∧
      (∀ c < n, t.faultUnit.Held (.sourceLost c) n → u.faultUnit.Held (.sourceLost c) (n + 1)) ∧
      (t.crosspoint.presence.get n = .present → u.faultUnit.Held (.sourceLost n) (n + 1)) := by
  obtain ⟨hlist, hoverflow, hlaw⟩ := hchange.faults hs
  refine ⟨hlaw hl, fun c hc h => .congr ?_ hlist hoverflow, fun hp => .congr ?_ hlist hoverflow⟩
  · unfold sourceFaults
    split
    · exact h.mono (Nat.le_succ n)
    · exact h.remove hl (fun heq => Nat.ne_of_lt hc (FaultId.sourceLost.inj heq)) (by omega)
    · exact (h.add _ _).mono (Nat.le_succ n)
  · have hadded : sourceFaults t n = t.faultUnit.add (.sourceLost n) t.timer.seconds := by
      unfold sourceFaults
      rw [hp]
    rw [hadded]
    exact (FaultUnit.held_add hl _ _).mono (Nat.zero_le _)

/-- A slot that does not turn its channel leaves the faults, the claims and the mail alone. -/
theorem takeSlot_unturned (h : ¬(Turns t c bit ∧ Full t c)) :
    (takeSlot c v bit t).faultUnit = t.faultUnit ∧ (takeSlot c v bit t).arbiter = t.arbiter ∧
      (takeSlot c v bit t).mail = t.mail := by
  obtain ⟨-, hstays, hcounts, -⟩ := takeSlot_cases c v bit t
  by_cases hturns : Turns t c bit
  · have hcounted := hcounts hturns fun hfull => h ⟨hturns, hfull⟩
    exact ⟨hcounted.faultUnit, hcounted.arbiter, hcounted.mail⟩
  · have hstayed := hstays hturns
    exact ⟨hstayed.faultUnit, hstayed.arbiter, hstayed.mail⟩

/-- One more slot taken. -/
theorem SlotsTaken.next (hn : n < 32) (h : SlotsTaken l n s t) :
    SlotsTaken l (n + 1) s (takeSlot n (frameSample l n) (bitAt l 65 n) t) := by
  have hahead := h.ahead n (Nat.le_refl n)
  have hturned : (Turns t n (bitAt l 65 n) ∧ Full t n) ↔ Turned l s n := turned_iff hahead
  have hunturned := takeSlot_unturned (v := frameSample l n) (bit := bitAt l 65 n) (t := t) (c := n)
  have hother (c : Nat) (hne : n ≠ c) := takeSlot_other hne (frameSample l n) (bitAt l 65 n) t
  have hdone := takeSlot_done (l := l) hn hahead
  obtain ⟨hkept, -, -, hchanges⟩ := takeSlot_cases n (frameSample l n) (bitAt l 65 n) t
  generalize takeSlot n (frameSample l n) (bitAt l 65 n) t = u at *
  have hchange (hn : Turned l s n) : SlotChanges n t u :=
    have ⟨hturns, hfull⟩ := hturned.mpr hn
    hchanges hturns hfull
  refine ⟨hkept.timer.trans h.timer, hkept.sPort.trans h.sPort, hkept.zPort.trans h.zPort, fun hs => hkept.sound (h.sound hs),
    fun c hc => (h.ahead c (by omega)).trans (hother c (by omega)), fun c hc => ?done, fun c hc ht hp k hk d hd => ?dropped,
    fun c hc ht hp => ?cleared, fun hs hl => ?held, fun hno => ?quiet⟩
  case done =>
    rcases Nat.lt_succ_iff_lt_or_eq.mp hc with hlt | rfl
    · exact (h.done c hlt).kept (hother c (Nat.ne_of_gt hlt))
    · exact hdone
  case dropped =>
    rcases Nat.lt_succ_iff_lt_or_eq.mp hc with hlt | rfl
    · obtain ⟨e, he, hchannel⟩ := hkept.claims k d hd
      rw [hchannel]
      exact h.dropped c hlt ht hp k hk e he
    · exact (hchange ht).dropped (hahead.presence.trans hp) k hk d hd
  case cleared =>
    rcases Nat.lt_succ_iff_lt_or_eq.mp hc with hlt | rfl
    · refine Bool.eq_false_iff.mpr fun hlisted => ?_
      have hbefore := hkept.source c (Nat.ne_of_lt hlt) hlisted
      rw [h.cleared c hlt ht hp] at hbefore
      exact nomatch hbefore
    · exact (hchange ht).cleared (hahead.presence.trans hp)
  case held =>
    obtain ⟨hlaw, hheld⟩ := h.held hs hl
    by_cases ht : Turned l s n
    · obtain ⟨hlaw', hbefore, hnow⟩ := held_step hn (h.sound hs) hlaw (hchange ht)
      refine ⟨hlaw', fun c hc hct hp => ?_⟩
      rcases Nat.lt_succ_iff_lt_or_eq.mp hc with hlt | rfl
      · exact hbefore c hlt (hheld c hlt hct hp)
      · exact hnow (hahead.presence.trans hp)
    · have hsame := (hunturned (mt hturned.mp ht)).1
      rw [hsame]
      refine ⟨hlaw, fun c hc hct hp => ?_⟩
      rcases Nat.lt_succ_iff_lt_or_eq.mp hc with hlt | rfl
      · exact (hheld c hlt hct hp).mono (Nat.le_succ n)
      · exact absurd hct ht
  case quiet =>
    obtain ⟨hfaults, harbiter, hmail⟩ := h.quiet fun c hc => hno c (Nat.lt_succ_of_lt hc)
    obtain ⟨hfaults', harbiter', hmail'⟩ := hunturned (mt hturned.mp (hno n (Nat.lt_succ_self n)))
    exact ⟨hfaults'.trans hfaults, harbiter'.trans harbiter, hmail'.trans hmail⟩

/-- All slots of a good period taken. -/
theorem takeSlots_taken (l : List Byte) (s : State) : SlotsTaken l 32 s (takeSlots l s) := by
  suffices h : ∀ n ≤ 32, SlotsTaken l n s
      ((List.range n).foldl (fun t c => takeSlot c (frameSample l c) (bitAt l 65 c) t) s) from h 32 (Nat.le_refl 32)
  intro n hn
  induction n with
  | zero => exact .refl l s
  | succ n ih =>
    rw [List.range_succ, List.foldl_append]
    exact (ih (Nat.le_of_succ_le hn)).next hn

end Sys2Proof.Machine
end

section
/-! S-PERIODS. A period settled in UP: its slots, the cell it completes, and what the cell does (R107, R111, R115 to R117,
R149). -/

namespace Sys2Proof.Machine

variable {s t v : State} {c n : Nat} {l cell : List Byte} {i : Instr}

/-! ### A good period in UP (R107, R111) -/

/-- The S-port once a good period has been counted. -/
def portSeen (l : List Byte) (p : SPort) : SPort :=
  { p with failedRun := 0, inboundCount := (p.inboundCount + 1) % 65536, lastNumber := byteAt l 0 }

/-- The partial cell and the cell that the segment of a good period leaves. -/
def periodCell (l : List Byte) (p : SPort) : List Byte × Option (List Byte) :=
  rebuild (segmentAt l 69) (afterNumber (byteAt l 0) p.lastNumber p.partialCell)

/-- The state once the slots of a good period have been taken. -/
def periodSlots (l : List Byte) (s : State) : State := takeSlots l { s with sPort := portSeen l s.sPort }

/-- The state once the segment of a good period has been taken too. -/
def periodSeen (l : List Byte) (s : State) : State :=
  { drain drainFuel (periodSlots l s) with
    sPort := { portSeen l s.sPort with partialCell := (periodCell l s.sPort).1 } }

theorem periodSlots_taken (l : List Byte) (s : State) :
    SlotsTaken l 32 { s with sPort := portSeen l s.sPort } (periodSlots l s) :=
  takeSlots_taken l _

/-- A cell completed or not is delivered where its check is good. -/
def cellTaken (v : State) : Option (List Byte) → State
  | some c => if cellGood c then deliverCell c v else v
  | none => v

theorem sGoodInUp_eq (l : List Byte) (s : State) :
    sGoodInUp s.sPort.lastNumber l (countGood l s) = cellTaken (periodSeen l s) (periodCell l s.sPort).2 := by
  have hport : (drain drainFuel (periodSlots l s)).sPort = portSeen l s.sPort :=
    (drain_worked drainFuel _).sPort.trans (periodSlots_taken l s).sPort
  have hseen : (drain drainFuel (periodSlots l s)).onSPort (fun p => { p with partialCell := (periodCell l s.sPort).1 }) =
      periodSeen l s :=
    congrArg (fun p => { drain drainFuel (periodSlots l s) with
      sPort := { p with partialCell := (periodCell l s.sPort).1 } }) hport
  have hslots : takeSlots l ((countGood l s).onSPort fun p => { p with failedRun := 0 }) = periodSlots l s := rfl
  have hheld : (drain drainFuel (periodSlots l s)).sPort.partialCell = s.sPort.partialCell :=
    (congrArg SPort.partialCell hport :)
  have hcell : rebuild (segmentAt l 69) (afterNumber (byteAt l 0) s.sPort.lastNumber
      (drain drainFuel (periodSlots l s)).sPort.partialCell) = ((periodCell l s.sPort).1, (periodCell l s.sPort).2) := by
    rw [hheld]
    rfl
  unfold sGoodInUp
  rw [hslots]
  dsimp only
  rw [hcell]
  dsimp only
  rw [hseen]
  cases (periodCell l s.sPort).2 <;> rfl

theorem sPeriodSettle_up (hlink : s.sPort.link = .up) (hgood : sFrameGood l = true) :
    sPeriodSettle (some l) s = sGoodInUp s.sPort.lastNumber l (countGood l s) := by
  rw [sPeriodSettle_good hgood]
  simp only [sGood, hlink]

theorem sPeriod_noCell (hlink : s.sPort.link = .up) (hgood : sFrameGood l = true) (hnone : (periodCell l s.sPort).2 = none) :
    sPeriodSettle (some l) s = periodSeen l s := by
  rw [sPeriodSettle_up hlink hgood, sGoodInUp_eq]
  rw [hnone]
  rfl

theorem sPeriod_badCell (hlink : s.sPort.link = .up) (hgood : sFrameGood l = true)
    (hsome : (periodCell l s.sPort).2 = some cell) (hbad : cellGood cell = false) :
    sPeriodSettle (some l) s = periodSeen l s := by
  rw [sPeriodSettle_up hlink hgood, sGoodInUp_eq]
  rw [hsome]
  exact if_neg (by rw [hbad]; exact Bool.false_ne_true)

theorem sPeriod_cell (hlink : s.sPort.link = .up) (hgood : sFrameGood l = true)
    (hsome : (periodCell l s.sPort).2 = some cell) (hcell : cellGood cell = true) :
    sPeriodSettle (some l) s = deliverCell cell (periodSeen l s) := by
  rw [sPeriodSettle_up hlink hgood, sGoodInUp_eq]
  rw [hsome]
  exact if_pos hcell

/-- Whatever cell a period completes, the stores stand as its slots have left them. -/
theorem sPeriod_still (hlink : s.sPort.link = .up) (hgood : sFrameGood l = true) :
    Still (periodSeen l s) (sPeriodSettle (some l) s) := by
  rcases hdone : (periodCell l s.sPort).2 with _ | cell
  · rw [sPeriod_noCell hlink hgood hdone]
    exact .refl _
  · cases hcell : cellGood cell
    · rw [sPeriod_badCell hlink hgood hdone hcell]
      exact .refl _
    · rw [sPeriod_cell hlink hgood hdone hcell]
      exact .deliverCell cell _

/-! ### A bad or missed period in UP (R107, R108) -/

/-- The state once a failed period has been counted. -/
def periodFailed (s : State) : State :=
  { s with
    sPort := { s.sPort with failedRun := s.sPort.failedRun + 1, partialCell := [] }
    crosspoint := { s.crosspoint with samples := .const 0 } }

theorem sPeriodSettle_failed {received : Option (List Byte)} (hlink : s.sPort.link = .up)
    (hbad : ∀ l, received = some l → sFrameGood l = false) :
    sPeriodSettle received s =
      if 4 ≤ s.sPort.failedRun + 1 then sLinkIsland (periodFailed s) else periodFailed s := by
  have hfail : sPeriodSettle received s = sFailInUp s := by
    rcases received with _ | l
    · simp only [sPeriodSettle, sMissed, hlink]
    · simp only [sPeriodSettle, hbad l rfl, sBad, hlink, Bool.false_eq_true, if_false]
  rw [hfail]
  rfl

/-! ### Cell reassembly (R111) -/

theorem rebuild_first {g : Segment} (h : g.marker = true) (held : List Byte) : rebuild g held = (g.bytes, none) := if_pos h

theorem rebuild_unmarked {g : Segment} (h : g.marker = false) (held : List Byte) :
    rebuild g held =
      if held = [] then ([], none)
      else if 64 ≤ (held ++ g.bytes).length then ([], some (held ++ g.bytes)) else (held ++ g.bytes, none) :=
  if_neg (by rw [h]; exact Bool.false_ne_true)

theorem rebuild_stray {g : Segment} (h : g.marker = false) : rebuild g [] = ([], none) :=
  (rebuild_unmarked h []).trans (if_pos rfl)

theorem rebuild_joined {g : Segment} {held : List Byte} (h : g.marker = false) (hheld : held ≠ []) :
    rebuild g held =
      if (held ++ g.bytes).length < 64 then (held ++ g.bytes, none) else ([], some (held ++ g.bytes)) := by
  rw [rebuild_unmarked h, if_neg hheld]
  by_cases hshort : (held ++ g.bytes).length < 64
  · rw [if_pos hshort, if_neg (Nat.not_le.mpr hshort)]
  · rw [if_neg hshort, if_pos (Nat.not_lt.mp hshort)]

/-! ### Cells taken (R149) -/

theorem leaves_of_next {w : State} (h : exec i v = .next w) (hmail : w.mail = []) : Leaves i v w := by
  unfold Leaves
  rw [drain_nil drainFuel hmail]
  exact h

theorem restore_mail (dz : Nat) (s : State) : (restore dz s).mail = s.mail := by
  unfold restore
  split <;> rfl

theorem dfault_mail (dz : Nat) (s : State) : (dfault dz s).mail = s.mail := by
  unfold dfault
  split <;> rfl

theorem dfaultClear_mail (dz : Nat) (s : State) : (dfaultClear dz s).mail = s.mail := by
  unfold dfaultClear
  split <;> rfl

theorem unknownRequest_mail (q : Sender) (type : Nat) (s : State) : (unknownRequest q type s).mail = s.mail := by
  unfold unknownRequest
  split <;> rfl

theorem readDetect_leaves (hmail : v.mail = []) : Leaves (readDetect cell) v (takeCommand (readDetect cell) v) := by
  unfold readDetect
  split
  · exact leaves_of_next rfl hmail
  · split
    · rfl
    · exact leaves_of_next rfl ((restore_mail _ v).trans hmail)
    · exact leaves_of_next rfl ((dfault_mail _ v).trans hmail)
    · exact leaves_of_next rfl ((dfaultClear_mail _ v).trans hmail)
    · exact leaves_of_next rfl hmail

theorem readRequest_leaves (hmail : v.mail = []) : Leaves (readRequest cell) v (takeCommand (readRequest cell) v) := by
  unfold readRequest
  dsimp only
  split
  case h_24 => exact leaves_of_next rfl ((unknownRequest_mail _ _ v).trans hmail)
  all_goals rfl

/-- A command read from a cell is done where the cell is taken as it is done on its own. -/
theorem carried_leaves (hread : readCell cell = some i) (hmail : v.mail = []) : Leaves i v (takeCommand i v) := by
  unfold readCell at hread
  dsimp only at hread
  split at hread
  · obtain rfl := Option.some.inj hread
    exact readDetect_leaves hmail
  · obtain rfl := Option.some.inj hread
    rfl
  · obtain rfl := Option.some.inj hread
    rfl
  · split at hread
    iterate 4
      · obtain rfl := Option.some.inj hread
        rfl
    · exact nomatch hread
  · obtain rfl := Option.some.inj hread
    exact readRequest_leaves hmail
  · exact nomatch hread

theorem isDetect_iff : isDetect cell = true ↔ byteAt cell 2 = 1 := decide_eq_true_iff

theorem isStation_iff : isStation n = true ↔ 1 ≤ n ∧ n ≤ 254 := by
  unfold isStation
  rw [Bool.and_eq_true, decide_eq_true_iff, decide_eq_true_iff]

theorem takenBroadcast_iff : takenBroadcast cell = true ↔
    byteAt cell 2 = 1 ∨ byteAt cell 2 = 5 ∧ (byteAt cell 4 = 1 ∨ byteAt cell 4 = 2) := by
  unfold takenBroadcast takenUnbound
  rw [Bool.or_eq_true, isDetect_iff, Bool.and_eq_true, Bool.or_eq_true, decide_eq_true_iff, decide_eq_true_iff,
    decide_eq_true_iff]

/-- The cell is a detection report, or its source is a station. -/
def FromTaken (cell : List Byte) : Prop := byteAt cell 2 = 1 ∨ (1 ≤ byteAt cell 1 ∧ byteAt cell 1 ≤ 254)

theorem fromTaken_iff : (isDetect cell || isStation (byteAt cell 1)) = true ↔ FromTaken cell := by
  rw [Bool.or_eq_true, isDetect_iff, isStation_iff]
  rfl

theorem takeCell_of (hread : readCell cell = some i) (h : FromTaken cell) : takeCell cell v = takeCommand i v := by
  unfold takeCell
  rw [hread]
  exact if_pos (fromTaken_iff.mpr h)

theorem takeCell_other (h : readCell cell = none ∨ ¬FromTaken cell) : takeCell cell v = v := by
  unfold takeCell
  rcases hread : readCell cell with _ | i
  · rfl
  · exact if_neg (mt fromTaken_iff.mp (h.resolve_left (by rw [hread]; exact Option.some_ne_none i)))

theorem deliverCell_forwarded (h : byteAt cell 0 ≠ 255) (ho : byteAt cell 0 ≠ v.router.address) :
    deliverCell cell v = forwardSToZ cell v := (if_neg h).trans (if_neg ho)

theorem deliverCell_own (h : byteAt cell 0 ≠ 255) (ho : byteAt cell 0 = v.router.address) :
    deliverCell cell v = takeCell cell v := (if_neg h).trans (if_pos ho)

theorem deliverCell_broadcast (h : byteAt cell 0 = 255) :
    deliverCell cell v = forwardSToZ cell (if takenBroadcast cell then takeCell cell v else v) := if_pos h

end Sys2Proof.Machine
end

section
/-! S-PERIODS. The statement: a period settled in UP, cell reassembly and the delivery of a cell (R107, R111, R115 to
R117, R149). -/

namespace Sys2Proof.Machine

variable {s t : State} {l : List Byte}

/-- What a good period in UP leaves of the channels, the timer and the ports. -/
theorem sPeriod_leaves (hlink : s.sPort.link = .up) (hgood : sFrameGood l = true) :
    ∃ t, exec (.sPeriodSettle (some l)) s = .next t ∧ (∀ c < 32, SlotDone l c { s with sPort := portSeen l s.sPort } t) ∧
      t.timer = s.timer ∧ t.zPort = s.zPort ∧
      t.sPort = { portSeen l s.sPort with partialCell := (periodCell l s.sPort).1 } := by
  obtain ⟨t, hsettled, hworked⟩ := settled_worked (sPeriodSettle (some l) s)
  have htaken := periodSlots_taken l s
  have hdrained := drain_worked drainFuel (periodSlots l s)
  have hstill := (sPeriod_still hlink hgood).trans hworked.still
  refine ⟨t, hsettled, fun c hc => (htaken.done c hc).kept ⟨?_, ?_, ?_⟩, ?_, ?_, hstill.sPort⟩
  · exact congrArg (fun x => Tab.get x c) (hstill.samples.trans hdrained.samples)
  · exact congrArg (fun x => Tab.get x c) (hstill.runs.trans hdrained.runs)
  · exact congrArg (fun x => Tab.get x c) (hstill.presence.trans hdrained.presence)
  · exact (hstill.timer.trans hdrained.timer).trans htaken.timer
  · exact (hstill.zPort.trans hdrained.zPort).trans htaken.zPort

/-- Settles O19: the period by its slots and its cell, and the cell by its destination. -/
theorem sPeriodsSettleInUp : Obligations.SPeriodsSettleInUp := by
  refine ⟨fun s received hlink => ⟨?good, ?bad⟩, fun g held => ?reassembly, ?delivery⟩
  case good =>
    rintro l rfl hgood
    intro seen rebuilt a v turns full
    have hturned (c : Nat) (hturns : turns c) (hfull : full c) : Turned l { s with sPort := seen } c :=
      ⟨bne_iff_ne.mpr hturns, hfull⟩
    have htaken : SlotsTaken l 32 { s with sPort := seen } a := periodSlots_taken l s
    obtain ⟨t, hnext, hdone, hrest⟩ := sPeriod_leaves hlink hgood
    refine ⟨⟨t, hnext, fun c hc => ?_, hrest⟩, fun c hc hturns hfull => ⟨fun hp => ⟨?_, fun hs hl => ?_⟩, fun hp => ?_⟩,
      fun hno => ?_, fun hnone => ?_, fun cell hsome hbad => ?_, fun cell hsome hcell => ?_⟩
    · obtain ⟨hsample, hstays, hcounts, hchanges⟩ := hdone c hc
      exact ⟨hsample, fun h => hstays fun hturns => h (bne_iff_ne.mp hturns),
        fun h hfull => hcounts (bne_iff_ne.mpr h) hfull, fun h hfull => hchanges (bne_iff_ne.mpr h) hfull⟩
    · exact htaken.dropped c hc (hturned c hturns hfull) hp
    · exact ((htaken.held hs hl).2 c hc (hturned c hturns hfull) hp).imp_right And.left
    · exact htaken.cleared c hc (hturned c hturns hfull) hp
    · exact htaken.quiet fun c hc ⟨hturns, hfull⟩ => hno c hc (bne_iff_ne.mp hturns) hfull
    · exact congrArg settled (sPeriod_noCell hlink hgood hnone)
    · exact congrArg settled (sPeriod_badCell hlink hgood hsome hbad)
    · exact congrArg settled (sPeriod_cell hlink hgood hsome hcell)
  case bad =>
    intro hbad u
    have hfailed := sPeriodSettle_failed hlink hbad
    refine ⟨fun hrun => ?_, fun hrun => ?_⟩
    · rw [if_neg (by omega)] at hfailed
      exact congrArg settled hfailed
    · rw [if_pos (by omega)] at hfailed
      refine same_next (congrArg settled hfailed) (congrArg settled ?_)
      exact if_pos ⟨hlink, Nat.succ_le_succ hrun⟩
  case reassembly =>
    refine ⟨fun h => rebuild_first h held, ?_, fun h hheld => rebuild_joined h hheld⟩
    rintro h rfl
    exact rebuild_stray h
  case delivery =>
    intro cell v destination detect station bindOrStatus forwarded
    refine ⟨fun hne ho => deliverCell_forwarded hne ho, fun hne ho => ⟨fun i hread htaken hmail => ?_, fun hnot => ?_⟩,
      fun hall => ⟨fun i hread htaken hmail => ?_, fun hnoDetect hnoRequest => ?_⟩⟩
    · rw [deliverCell_own hne ho, takeCell_of hread htaken]
      exact carried_leaves hread hmail
    · rw [deliverCell_own hne ho]
      exact takeCell_other (hnot.imp_right not_or.mpr)
    · have hbroadcast : takenBroadcast cell = true := takenBroadcast_iff.mpr (htaken.imp_right And.left)
      refine ⟨takeCommand i v, carried_leaves hread hmail, ?_⟩
      rw [deliverCell_broadcast hall, if_pos hbroadcast, takeCell_of hread (htaken.imp_right And.right)]
      rfl
    · have hsame : (if takenBroadcast cell then takeCell cell v else v) = v := by
        split
        · next hbroadcast =>
          have hrequest := (takenBroadcast_iff.mp hbroadcast).resolve_left hnoDetect
          exact takeCell_other (.inr fun h => h.elim hnoDetect fun hstation => hnoRequest ⟨hrequest, hstation⟩)
        · rfl
      rw [deliverCell_broadcast hall, hsame]
      rfl

end Sys2Proof.Machine
end
